-- ==== Sys2Proof/Word.lean ====
section
/-! DEFINITION. The values the block works on (00 R8, R9) and the six-face register file shape (00 R6 `FACE_COUNT`). -/

namespace Sys2Proof

/-- A byte: face values, headers, datagram bytes, the 8-bit receive registers. -/
abbrev Byte := BitVec 8

/-- A 6-bit face mask, bit `f` for face `f` (00 R14). -/
abbrev Mask := BitVec 6

/-- A PHY byte, the 7-bit value a frame carries (00 R19, 30 R86). -/
abbrev Phy := BitVec 7

/-- A face index, 0 to 5 (00 R6, R10). -/
abbrev Face := Fin 6

/-- One register of each face. -/
structure PerFace (α : Type) where
  f0 : α
  f1 : α
  f2 : α
  f3 : α
  f4 : α
  f5 : α
deriving DecidableEq, Repr, Inhabited

namespace PerFace

variable {α : Type}

/-- The register of face `f`. -/
def get (v : PerFace α) (f : Face) : α :=
  match f with
  | 0 => v.f0
  | 1 => v.f1
  | 2 => v.f2
  | 3 => v.f3
  | 4 => v.f4
  | 5 => v.f5

/-- Write the register of face `f`, the other five unchanged. -/
def set (v : PerFace α) (f : Face) (a : α) : PerFace α :=
  match f with
  | 0 => { v with f0 := a }
  | 1 => { v with f1 := a }
  | 2 => { v with f2 := a }
  | 3 => { v with f3 := a }
  | 4 => { v with f4 := a }
  | 5 => { v with f5 := a }

/-- The register file whose register of face `f` is `g f`. -/
def ofFn (g : Face → α) : PerFace α := ⟨g 0, g 1, g 2, g 3, g 4, g 5⟩

end PerFace

/-- The faces in the order every step visits them (92 D43). -/
def allFaces : List Face := [0, 1, 2, 3, 4, 5]

/-- A packet: a list of at least one byte, byte 0 the face value (30 R96). -/
structure Packet where
  first : Byte
  rest : List Byte
deriving DecidableEq, Repr, Inhabited

/-- The bytes of a packet, byte 0 first (20 R64). -/
def Packet.bytes (p : Packet) : List Byte := p.first :: p.rest

end Sys2Proof
end

