-- ==== Sys2Proof/Config.lean ====
section
/-! DEFINITION. What an implementation fixes (00 R6) and the values the spec leaves open. An `opaque` constant has no
body: nothing can be proved about its value, so a claim that mentions it holds whatever it is. -/

namespace Sys2Proof

/-- A given answer for one call of `PKT_RX(f)` under an uninterpreted carrier (30 R100): how often it polls the mailbox
of its face, and the packet it then reports complete, if any. That it consumed a byte is not part of the answer: the polls
say so. -/
structure CarrierAnswer where
  polls : Nat
  packet : Option Packet
deriving DecidableEq, Repr, Inhabited

/-- One `TX_BYTE` call of an uninterpreted carrier: the value, and the faces of the packet's mask it picks for it
(30 R100 limits only the values; log 8). -/
structure CarrierFrame where
  part : Mask
  value : Phy
deriving DecidableEq, Repr, Inhabited

/-- A given answer for one call of `PKT_TX`: the frames sent if the packet handed over is this one (log 8). -/
structure CarrierSend where
  packet : Packet
  frames : List CarrierFrame
deriving DecidableEq, Repr, Inhabited

/-- What a carrier can see (30 R100): what each of its polls returned, and each packet it was handed. -/
inductive CarrierEvent where
  | polled (f : Face) (r : Option Phy)
  | handed (m : Mask) (p : Packet)
deriving DecidableEq, Repr

/-- The parameter `PacketCarrier` (00 R6, 30 R100, R101). -/
inductive Carrier where
  /-- `CARRIER_FACE_ONLY`, the reference carrier (30 R101). -/
  | faceOnly
  /-- Any carrier at all: it acts only through `IR_POLL` and `TX_BYTE`, its choices are inputs (30 R100, 92 D25). -/
  | uninterpreted
deriving DecidableEq, Repr, Inhabited

/-- The implementation parameters of 00 R6 that are not fixed by the spec. -/
structure Config where
  /-- `T_WINDOW_US`, the sample window; timing only. -/
  tWindowUs : Nat
  /-- `T_BIT_GAP_US`, the spacing of the two flashes of a 1-bit; passed to `Pulse`. -/
  tBitGapUs : Nat
  /-- `T_SYNC_GAP_US`, the spacing of the sync flashes; passed to `Pulse`. -/
  tSyncGapUs : Nat
  /-- `T_SYMBOL_GAP_US`, the idle time after every symbol; passed to `Idle`. -/
  tSymbolGapUs : Nat
  /-- `DROPOUT_ZERO_SAMPLES`, the consecutive 0-samples that abort a frame (92 D6; log 10). -/
  dropoutZeroSamples : Nat
  /-- `PROBE_INTERVAL_MS`. -/
  probeIntervalMs : Nat
  /-- `EXPIRE_WINDOW_MS`. -/
  expireWindowMs : Nat
  /-- `SEND_STAGGER_MS[f]`. -/
  sendStaggerMs : PerFace Nat
  /-- `TIMER_BITS`, the width of the clock and of every timer. -/
  timerBits : Nat
  /-- `PacketCarrier`. -/
  carrier : Carrier
deriving DecidableEq, Repr

namespace Config

/-- `SYNC_PULSES`: flashes sent for a sync (00 R6). -/
abbrev syncPulses : Nat := 4

/-- `SYNC_SAMPLES`: consecutive 1-samples that make a sync (00 R6). -/
abbrev syncSamples : Nat := 3

/-- The default of `DROPOUT_ZERO_SAMPLES` (00 R6), also the most windows the 8-bit shift register can see empty
(92 D6; log 10). -/
abbrev dropoutDefault : Nat := 8

/-- `DATAGRAM_CAPACITY` (00 R6). -/
abbrev datagramCapacity : Nat := 16

/-- The longest packet: face value, header and a full datagram (30 R96). -/
abbrev packetCapacity : Nat := 18

/-- `SLEEP_CONST` (00 R6, 30 R98). -/
abbrev sleepConst : Byte := 0b00010101

/-- `WAKE_CONST` (00 R6, 30 R98). -/
abbrev wakeConst : Byte := 0b00110011

/-- What a byte of a datagram buffer reads as that nothing has written. The spec gives none (10 R36, 93 I19);
DESIGN CHOICE, log 11. -/
def freshByte : Byte := 0x00

/-- `T_SYMBOL_GAP_US` has no value anywhere (00 R6, 92 D15): free value, log 9. -/
opaque openSymbolGapUs : Nat

/-- `SEND_STAGGER_MS[f]` has no value (00 R6, 92 D24): free values, log 9. -/
opaque openStaggerMs : Face → BitVec 32

/-- The n-th answer of `Sample()`, under no law (40 R110, 93 I1, I2): free value, log 5. -/
opaque freeSample : Nat → Mask

/-- The n-th answer of the millisecond clock, under no law (43 R172, 93 I3): free value, log 6. -/
opaque freeClock : Nat → Nat

/-- How many sample steps fall before the n-th poll of a receive step (00 R17): free value, log 7. -/
opaque freeTicks : Nat → Nat

/-- How often an uninterpreted carrier may poll face `f` in its n-th `PKT_RX` call, having seen the events so far
(30 R100, 93 I10): free value, log 8. -/
opaque freeCarrierPolls : Nat → List CarrierEvent → Face → Nat

/-- Does it poll again in that call, having seen the events so far: free value, log 8. -/
opaque freeCarrierAgain : Nat → List CarrierEvent → Face → Bool

/-- The packet it reports at the end of that call, having seen the events so far: free value, log 8. -/
opaque freeCarrierPacket : Nat → List CarrierEvent → Face → Option Packet

/-- The frames an uninterpreted carrier sends in its n-th `PKT_TX` call for the mask and packet handed to it, having seen
the events before (30 R100, 93 I10): free value, log 8. -/
opaque freeCarrierTx : Nat → List CarrierEvent → Mask → Packet → List CarrierFrame

/-- The configuration after reset: the default of 00 R6 where there is one, else a free value. -/
def default : Config where
  tWindowUs := 512
  tBitGapUs := 600
  tSyncGapUs := 400
  tSymbolGapUs := openSymbolGapUs
  dropoutZeroSamples := dropoutDefault
  probeIntervalMs := 150
  expireWindowMs := 200
  sendStaggerMs := PerFace.ofFn fun f => (openStaggerMs f).toNat
  timerBits := 32
  carrier := .uninterpreted

end Config

end Sys2Proof
end

