-- ==== Sys2Proof/Syntax.lean ====
section
/-! DEFINITION. The operations of the block: one constructor for each row of `spec/opcode_table.json` (30 R102, and the
data formats that the table lists beside the operations). A face operand is a number as the caller gives it; that it is
in 0 to 5 is checked by `Instr.wellFormed` and by the meanings (00 R10, 43 R171). -/

namespace Sys2Proof

inductive Instr where
  /-- `SYM_ZERO`: the 0-bit on face `f` (40 R115). -/
  | symZero (f : Nat)
  /-- `SYM_ONE_ADJ`: the 1-bit with pulses in adjacent windows (40 R116). -/
  | symOneAdj (f : Nat)
  /-- `SYM_ONE_SKEW`: the 1-bit with pulses one window apart (40 R117). -/
  | symOneSkew (f : Nat)
  /-- `SYM_SYNC`: the sync marker (40 R118). -/
  | symSync (f : Nat)
  /-- `RX_DROPOUT` (40 R120). -/
  | rxDropout (f : Nat)
  /-- `RX_NOISE`, newest samples `1011` (40 R121). -/
  | rxNoise1011 (f : Nat)
  /-- `RX_NOISE`, newest samples `1101` (40 R121). -/
  | rxNoise1101 (f : Nat)
  /-- `RX_NOISE`, newest samples `10101` (40 R121). -/
  | rxNoise10101 (f : Nat)
  /-- `RX_NONE` (40 R119). -/
  | rxNone (f : Nat)
  /-- `TXS_SYNC mask` (42 R152). -/
  | txsSync (mask : Mask)
  /-- `TXS_ZERO mask` (42 R153). -/
  | txsZero (mask : Mask)
  /-- `TXS_ONE mask` (42 R154). -/
  | txsOne (mask : Mask)
  /-- `TX_BYTE mask, v` (42 R155). -/
  | txByte (mask : Mask) (v : Byte)
  /-- `TX_PACKET mask, bytes` (42 R159). -/
  | txPacket (mask : Mask) (bytes : List Byte)
  /-- `SAMPLE_STEP` (40 R111). -/
  | sampleStep
  /-- `IR_POLL f` (41 R140). -/
  | irPoll (f : Nat)
  /-- `IR_GET_DATA f` (41 R142). -/
  | irGetData (f : Nat)
  /-- `IR_READ_ERRORS f` (41 R143). -/
  | irReadErrors (f : Nat)
  /-- `RECEIVE_STEP` (43 R180). -/
  | receiveStep
  /-- `SEND_STEP` (43 R186). -/
  | sendStep
  /-- `SET_OUTGOING_VALUE f, v` (43 R190). -/
  | setOutgoingValue (f : Nat) (v : Byte)
  /-- `SET_OUTGOING_VALUE_ALL v` (43 R191). -/
  | setOutgoingValueAll (v : Byte)
  /-- `GET_INCOMING_VALUE f` (43 R192). -/
  | getIncomingValue (f : Nat)
  /-- `DID_VALUE_CHANGE f` (43 R193). -/
  | didValueChange (f : Nat)
  /-- `IS_EXPIRED f` (43 R194). -/
  | isExpired (f : Nat)
  /-- `IS_ALONE` (43 R195). -/
  | isAlone
  /-- `SEND_DATAGRAM f, bytes` (44 R202). -/
  | sendDatagram (f : Nat) (bytes : List Byte)
  /-- `IS_DATAGRAM_PENDING f` (44 R205). -/
  | isDatagramPending (f : Nat)
  /-- `IS_DATAGRAM_READY f` (44 R214). -/
  | isDatagramReady (f : Nat)
  /-- `DATAGRAM_LENGTH f` (44 R215). -/
  | datagramLength (f : Nat)
  /-- `GET_DATAGRAM f` (44 R216). -/
  | getDatagram (f : Nat)
  /-- `CONSUME_DATAGRAM f` (44 R217). -/
  | consumeDatagram (f : Nat)
  /-- `SET_POSTPONE_SLEEP f, b` (44 R220). -/
  | setPostponeSleep (f : Nat) (b : Bool)
  /-- `ENTER_SLEEP` (00 R5). -/
  | enterSleep
  /-- `NOTIFY_ACTIVITY` (00 R5). -/
  | notifyActivity
  /-- `HEADER`: a header byte received on face `f`, with the datagram bytes behind it (30 R94, R96; 44 R207). -/
  | header (f : Nat) (h : Byte) (payload : List Byte)
  /-- `SPECIAL_SLEEP`: the packet `[0x15, 0x15]` received on face `f` (30 R98, 43 R185). -/
  | specialSleep (f : Nat)
  /-- `SPECIAL_WAKE`: the packet `[0x33, 0x33]` received on face `f` (30 R98, 43 R185). -/
  | specialWake (f : Nat)
deriving DecidableEq, Repr

end Sys2Proof
end

