-- ==== Sys2Proof/WellFormed.lean ====
section
/-! DEFINITION. The operand domains of 30 R102: a face in 0 to 5 (43 R171), a mask that is not zero (42 R157), a PHY byte
below 128 (42 R156), a packet of 1 to 18 bytes (42 R159), a datagram that does not begin with a reserved constant
(44 R203). A datagram that is empty or too long is in the domain: the operation answers 0 (44 R202). -/

namespace Sys2Proof

/-- A face operand names a face (43 R171). -/
def faceOk (f : Nat) : Bool := decide (f < 6)

/-- A mask operand names a face (42 R157). -/
def maskOk (m : Mask) : Bool := m != 0

/-- A PHY byte fits seven bits (42 R156). -/
def phyOk (v : Byte) : Bool := decide (v.toNat < 128)

/-- A packet has 1 to 18 bytes (30 R96, 42 R159). -/
def packetLengthOk (bytes : List Byte) : Bool :=
  decide (1 ≤ bytes.length) && decide (bytes.length ≤ Config.packetCapacity)

/-- A datagram payload does not begin with a reserved constant (30 R99, 44 R203). -/
def payloadOk (bytes : List Byte) : Bool :=
  match bytes with
  | [] => true
  | b :: _ => b != Config.sleepConst && b != Config.wakeConst

/-- Every operand is in its domain. -/
def Instr.wellFormed : Instr → Bool
  | .symZero f => faceOk f
  | .symOneAdj f => faceOk f
  | .symOneSkew f => faceOk f
  | .symSync f => faceOk f
  | .rxDropout f => faceOk f
  | .rxNoise1011 f => faceOk f
  | .rxNoise1101 f => faceOk f
  | .rxNoise10101 f => faceOk f
  | .rxNone f => faceOk f
  | .txsSync m => maskOk m
  | .txsZero m => maskOk m
  | .txsOne m => maskOk m
  | .txByte m v => maskOk m && phyOk v
  | .txPacket m bytes => maskOk m && packetLengthOk bytes
  | .sampleStep => true
  | .irPoll f => faceOk f
  | .irGetData f => faceOk f
  | .irReadErrors f => faceOk f
  | .receiveStep => true
  | .sendStep => true
  | .setOutgoingValue f _ => faceOk f
  | .setOutgoingValueAll _ => true
  | .getIncomingValue f => faceOk f
  | .didValueChange f => faceOk f
  | .isExpired f => faceOk f
  | .isAlone => true
  | .sendDatagram f bytes => faceOk f && payloadOk bytes
  | .isDatagramPending f => faceOk f
  | .isDatagramReady f => faceOk f
  | .datagramLength f => faceOk f
  | .getDatagram f => faceOk f
  | .consumeDatagram f => faceOk f
  | .setPostponeSleep f _ => faceOk f
  | .enterSleep => true
  | .notifyActivity => true
  | .header f _ _ => faceOk f
  | .specialSleep f => faceOk f
  | .specialWake f => faceOk f

end Sys2Proof
end

