-- ==== Sys2Proof/Decode.lean ====
section
/-! DEFINITION. Encodings and the decoder (file 30). The hardware has no instruction words: what it decodes is the sample
word of a face (30 R80, R81), and the table also lists pulse groups (R85), the frame (R86), the header byte (R94) and the
two special packets (R98); host operations are calls (R102). Each of these formats is a `Space` of its own, and a `Code`
is a list of bytes in one space. The bytes the spec lays out come first; operands it gives no bits (a face, a mask) follow
as whole bytes (log 2). -/

namespace Sys2Proof

/-- The operations that the host reaches as calls (30 R102): they have no binary encoding, so a call names its operation. -/
inductive CallName where
  | txPacket
  | sampleStep
  | irPoll
  | irGetData
  | irReadErrors
  | receiveStep
  | sendStep
  | setOutgoingValue
  | setOutgoingValueAll
  | getIncomingValue
  | didValueChange
  | isExpired
  | isAlone
  | sendDatagram
  | isDatagramPending
  | isDatagramReady
  | datagramLength
  | getDatagram
  | consumeDatagram
  | setPostponeSleep
  | enterSleep
  | notifyActivity
deriving DecidableEq, Repr

/-- The formats of `opcode_table.json`. -/
inductive Space where
  /-- `[bitstream, face]` (30 R81). -/
  | samplePattern
  /-- `[count, mask]` (30 R85). -/
  | pulseGroup
  /-- `[v6 .. v0 p, mask]`, the eight symbols after the sync (30 R86). -/
  | frame
  /-- `[header, face, datagram bytes ..]` (30 R94, R96). -/
  | headerByte
  /-- `[byte 0, byte 1, face]` (30 R98). -/
  | packet
  /-- A call by name with its operands in the order of 30 R102. -/
  | call (name : CallName)
deriving DecidableEq, Repr

/-- One encoded action. -/
structure Code where
  space : Space
  bytes : List Byte
deriving DecidableEq, Repr

/-- Why a code stands for no instruction. -/
inductive Reject where
  /-- The number of bytes does not fit the operation. -/
  | operandCount (count : Nat)
  /-- A mask byte with a bit above the six faces. -/
  | maskTooWide (b : Byte)
  /-- A bit operand that is neither 0 nor 1. -/
  | notABit (b : Byte)
  /-- No pulse group has this many flashes (30 R85). -/
  | pulseCount (b : Byte)
  /-- The eight bits after the sync hold an even number of 1s (30 R87). -/
  | evenParity (b : Byte)
  /-- Two bytes that are no special packet (30 R98). -/
  | notSpecial (first second : Byte)
deriving DecidableEq, Repr

/-- The outcomes of the pattern match (30 R81, 40 R122). -/
inductive SampleClass where
  | zero
  | oneAdj
  | oneSkew
  | sync
  | dropout
  | noise1011
  | noise1101
  | noise10101
  | nothing
deriving DecidableEq, Repr

/-- A row of the pattern table: register `b` matches when `(b & mask) == pattern` (30 R80). -/
structure PatternRow where
  cls : SampleClass
  mask : Byte
  pattern : Byte
deriving DecidableEq, Repr

/-- A byte whose low `n` bits are 1. -/
def lowOnes (n : Nat) : Byte := BitVec.ofNat 8 (2 ^ n - 1)

/-- The pattern table (30 R81), then the dropout value, the `dropout` newest windows all empty (40 R120; log 10), and the
noise patterns (40 R121), in the order the tests are made (60 R236). -/
def patternTable (dropout : Nat) : List PatternRow :=
  [ ⟨.zero, 0x1F, 0x04⟩,
    ⟨.oneAdj, 0x3F, 0x0C⟩,
    ⟨.oneSkew, 0x7F, 0x14⟩,
    ⟨.sync, lowOnes Config.syncSamples, lowOnes Config.syncSamples⟩,
    ⟨.dropout, lowOnes dropout, 0x00⟩,
    ⟨.noise1011, 0x0F, 0x0B⟩,
    ⟨.noise1101, 0x0F, 0x0D⟩,
    ⟨.noise10101, 0x1F, 0x15⟩ ]

/-- Does the shift register match a row (30 R80)? -/
def PatternRow.hits (r : PatternRow) (b : Byte) : Bool := b &&& r.mask == r.pattern

/-- The class of a value of the shift register, `dropout` being `DROPOUT_ZERO_SAMPLES` (40 R113, R122). -/
def classify (dropout : Nat) (b : Byte) : SampleClass :=
  match (patternTable dropout).find? (fun r => r.hits b) with
  | some r => r.cls
  | none => .nothing

/-- The operation a class selects on face `f`. -/
def SampleClass.instr (c : SampleClass) (f : Nat) : Instr :=
  match c with
  | .zero => .symZero f
  | .oneAdj => .symOneAdj f
  | .oneSkew => .symOneSkew f
  | .sync => .symSync f
  | .dropout => .rxDropout f
  | .noise1011 => .rxNoise1011 f
  | .noise1101 => .rxNoise1101 f
  | .noise10101 => .rxNoise10101 f
  | .nothing => .rxNone f

/-- `popcount` of a PHY byte (00 R9). -/
def popcount (v : Phy) : Nat :=
  v[0].toNat + v[1].toNat + v[2].toNat + v[3].toNat + v[4].toNat + v[5].toNat + v[6].toNat

/-- The parity test of a received frame (30 R87, 41 R130): the eight bits hold an odd number of 1s. -/
def parityGood (v : Phy) (p : Bool) : Bool := (popcount v + p.toNat) % 2 == 1

/-- The parity bit of a sent frame (30 R87). -/
def parityBit (v : Phy) : Bool := popcount v % 2 == 0

/-- The eight symbols after the sync as one byte: `v[6]` first, the parity bit last (30 R86). -/
def frameByte (v : Phy) : Byte := v ++ BitVec.ofBool (parityBit v)

/-- A mask operand: six bits in a byte. -/
def decodeMask (b : Byte) : Except Reject Mask :=
  if b.toNat < 64 then .ok (b.setWidth 6) else .error (.maskTooWide b)

/-- A one-bit operand in a byte. -/
def decodeBit (b : Byte) : Except Reject Bool :=
  if b = 0 then .ok false else if b = 1 then .ok true else .error (.notABit b)

/-- Sample words: every value has an outcome (30 R104). The dropout word is that of the opcode table, eight empty windows
(log 10). -/
def decodeSample (bytes : List Byte) : Except Reject Instr :=
  match bytes with
  | [b, f] => .ok ((classify Config.dropoutDefault b).instr f.toNat)
  | _ => .error (.operandCount bytes.length)

/-- Pulse groups by their number of flashes (30 R85). -/
def decodePulseGroup (bytes : List Byte) : Except Reject Instr :=
  match bytes with
  | [c, m] =>
    match decodeMask m with
    | .error e => .error e
    | .ok mask =>
      if c.toNat = Config.syncPulses then .ok (.txsSync mask)
      else if c = 1 then .ok (.txsZero mask)
      else if c = 2 then .ok (.txsOne mask)
      else .error (.pulseCount c)
  | _ => .error (.operandCount bytes.length)

/-- A frame: seven data bits and a parity bit that must fit them (30 R86, R87). -/
def decodeFrame (bytes : List Byte) : Except Reject Instr :=
  match bytes with
  | [b, m] =>
    match decodeMask m with
    | .error e => .error e
    | .ok mask =>
      let v : Phy := b.extractLsb' 1 7
      if parityGood v (b.getLsbD 0) then .ok (.txByte mask (v.setWidth 8)) else .error (.evenParity b)
  | _ => .error (.operandCount bytes.length)

/-- A header byte with the datagram bytes behind it (30 R96). -/
def decodeHeader (bytes : List Byte) : Except Reject Instr :=
  match bytes with
  | h :: f :: payload => .ok (.header f.toNat h payload)
  | _ => .error (.operandCount bytes.length)

/-- The special packets: exactly two bytes, both equal to one reserved constant (30 R98, 43 R185). -/
def decodePacket (bytes : List Byte) : Except Reject Instr :=
  match bytes with
  | [a, b, f] =>
    if a = Config.sleepConst ∧ b = Config.sleepConst then .ok (.specialSleep f.toNat)
    else if a = Config.wakeConst ∧ b = Config.wakeConst then .ok (.specialWake f.toNat)
    else .error (.notSpecial a b)
  | _ => .error (.operandCount bytes.length)

/-- A call without operands. -/
def decodeNullary (i : Instr) (bytes : List Byte) : Except Reject Instr :=
  match bytes with
  | [] => .ok i
  | _ => .error (.operandCount bytes.length)

/-- A call with one byte. -/
def decodeUnary (k : Byte → Instr) (bytes : List Byte) : Except Reject Instr :=
  match bytes with
  | [b] => .ok (k b)
  | _ => .error (.operandCount bytes.length)

/-- A call with a face operand. -/
def decodeFaceCall (k : Nat → Instr) (bytes : List Byte) : Except Reject Instr :=
  decodeUnary (fun b => k b.toNat) bytes

/-- A call with a face and a byte. -/
def decodeFaceByte (k : Nat → Byte → Except Reject Instr) (bytes : List Byte) : Except Reject Instr :=
  match bytes with
  | [f, v] => k f.toNat v
  | _ => .error (.operandCount bytes.length)

/-- A call whose first operand is one byte and whose second is the list of the others. -/
def decodeList (k : Byte → List Byte → Except Reject Instr) (bytes : List Byte) : Except Reject Instr :=
  match bytes with
  | b :: rest => k b rest
  | [] => .error (.operandCount 0)

/-- Calls, operands as 30 R102 lists them. -/
def decodeCall (name : CallName) (bytes : List Byte) : Except Reject Instr :=
  match name with
  | .txPacket => decodeList (fun m bs => (decodeMask m).map fun mask => .txPacket mask bs) bytes
  | .sampleStep => decodeNullary .sampleStep bytes
  | .irPoll => decodeFaceCall .irPoll bytes
  | .irGetData => decodeFaceCall .irGetData bytes
  | .irReadErrors => decodeFaceCall .irReadErrors bytes
  | .receiveStep => decodeNullary .receiveStep bytes
  | .sendStep => decodeNullary .sendStep bytes
  | .setOutgoingValue => decodeFaceByte (fun f v => .ok (.setOutgoingValue f v)) bytes
  | .setOutgoingValueAll => decodeUnary .setOutgoingValueAll bytes
  | .getIncomingValue => decodeFaceCall .getIncomingValue bytes
  | .didValueChange => decodeFaceCall .didValueChange bytes
  | .isExpired => decodeFaceCall .isExpired bytes
  | .isAlone => decodeNullary .isAlone bytes
  | .sendDatagram => decodeList (fun f bs => .ok (.sendDatagram f.toNat bs)) bytes
  | .isDatagramPending => decodeFaceCall .isDatagramPending bytes
  | .isDatagramReady => decodeFaceCall .isDatagramReady bytes
  | .datagramLength => decodeFaceCall .datagramLength bytes
  | .getDatagram => decodeFaceCall .getDatagram bytes
  | .consumeDatagram => decodeFaceCall .consumeDatagram bytes
  | .setPostponeSleep => decodeFaceByte (fun f v => (decodeBit v).map fun b => .setPostponeSleep f b) bytes
  | .enterSleep => decodeNullary .enterSleep bytes
  | .notifyActivity => decodeNullary .notifyActivity bytes

/-- The decoder: the instruction a code stands for, or the reason it stands for none. -/
def decode (c : Code) : Except Reject Instr :=
  match c.space with
  | .samplePattern => decodeSample c.bytes
  | .pulseGroup => decodePulseGroup c.bytes
  | .frame => decodeFrame c.bytes
  | .headerByte => decodeHeader c.bytes
  | .packet => decodePacket c.bytes
  | .call name => decodeCall name c.bytes

/-- A face as an operand byte. -/
def encodeFace (f : Nat) : Byte := BitVec.ofNat 8 f

/-- A mask as an operand byte. -/
def encodeMask (m : Mask) : Byte := m.setWidth 8

/-- The canonical sample word of a class: its pattern with every sample that is not tested 0; for `RX_NONE`, which has no
pattern, one of its values (40 R122, log 2). -/
def SampleClass.word : SampleClass → Byte
  | .zero => 0b00000100
  | .oneAdj => 0b00001100
  | .oneSkew => 0b00010100
  | .sync => 0b00000111
  | .dropout => 0b00000000
  | .noise1011 => 0b00001011
  | .noise1101 => 0b00001101
  | .noise10101 => 0b00010101
  | .nothing => 0b00000001

/-- A sample-pattern code. -/
def encodeSample (c : SampleClass) (f : Nat) : Code := ⟨.samplePattern, [c.word, encodeFace f]⟩

/-- A call with a face operand only. -/
def encodeFaceCall (name : CallName) (f : Nat) : Code := ⟨.call name, [encodeFace f]⟩

/-- The code of a well-formed instruction. -/
def encode : Instr → Code
  | .symZero f => encodeSample .zero f
  | .symOneAdj f => encodeSample .oneAdj f
  | .symOneSkew f => encodeSample .oneSkew f
  | .symSync f => encodeSample .sync f
  | .rxDropout f => encodeSample .dropout f
  | .rxNoise1011 f => encodeSample .noise1011 f
  | .rxNoise1101 f => encodeSample .noise1101 f
  | .rxNoise10101 f => encodeSample .noise10101 f
  | .rxNone f => encodeSample .nothing f
  | .txsSync m => ⟨.pulseGroup, [4, encodeMask m]⟩
  | .txsZero m => ⟨.pulseGroup, [1, encodeMask m]⟩
  | .txsOne m => ⟨.pulseGroup, [2, encodeMask m]⟩
  | .txByte m v => ⟨.frame, [frameByte (v.setWidth 7), encodeMask m]⟩
  | .txPacket m bytes => ⟨.call .txPacket, encodeMask m :: bytes⟩
  | .sampleStep => ⟨.call .sampleStep, []⟩
  | .irPoll f => encodeFaceCall .irPoll f
  | .irGetData f => encodeFaceCall .irGetData f
  | .irReadErrors f => encodeFaceCall .irReadErrors f
  | .receiveStep => ⟨.call .receiveStep, []⟩
  | .sendStep => ⟨.call .sendStep, []⟩
  | .setOutgoingValue f v => ⟨.call .setOutgoingValue, [encodeFace f, v]⟩
  | .setOutgoingValueAll v => ⟨.call .setOutgoingValueAll, [v]⟩
  | .getIncomingValue f => encodeFaceCall .getIncomingValue f
  | .didValueChange f => encodeFaceCall .didValueChange f
  | .isExpired f => encodeFaceCall .isExpired f
  | .isAlone => ⟨.call .isAlone, []⟩
  | .sendDatagram f bytes => ⟨.call .sendDatagram, encodeFace f :: bytes⟩
  | .isDatagramPending f => encodeFaceCall .isDatagramPending f
  | .isDatagramReady f => encodeFaceCall .isDatagramReady f
  | .datagramLength f => encodeFaceCall .datagramLength f
  | .getDatagram f => encodeFaceCall .getDatagram f
  | .consumeDatagram f => encodeFaceCall .consumeDatagram f
  | .setPostponeSleep f b => ⟨.call .setPostponeSleep, [encodeFace f, if b then 1 else 0]⟩
  | .enterSleep => ⟨.call .enterSleep, []⟩
  | .notifyActivity => ⟨.call .notifyActivity, []⟩
  | .header f h payload => ⟨.headerByte, h :: encodeFace f :: payload⟩
  | .specialSleep f => ⟨.packet, [0x15, 0x15, encodeFace f]⟩
  | .specialWake f => ⟨.packet, [0x33, 0x33, encodeFace f]⟩

/-- The low `n` bytes of `w`, the least significant first. -/
def bytesOf : Nat → Nat → List Byte
  | 0, _ => []
  | n + 1, w => BitVec.ofNat 8 w :: bytesOf n (w / 256)

/-- A word of the opcode table as a code. The rows whose bits the table gives are the sample patterns (8 bits) and the
special packets (16 bits, byte 0 first); the face operand, which has no bits, is a byte of zeros behind them. -/
def tableCode (nbits w : Nat) : Code :=
  if nbits ≤ 8 then ⟨.samplePattern, [BitVec.ofNat 8 w, 0]⟩
  else ⟨.packet, bytesOf ((nbits + 7) / 8) w ++ [0]⟩

/-- The instruction the decoder reads from a word of the opcode table. -/
def decodeTableWord (nbits w : Nat) : Option Instr :=
  match decode (tableCode nbits w) with
  | .ok i => some i
  | .error _ => none

end Sys2Proof
end

