-- ==== Sys2Proof/Machine/State.lean ====
section
/-! DEFINITION. The state of one tile's block (10 R20), the model's own scheduling and port fields (logs 1, 5 to 9, 15,
16), the reasons a step can stop, and the state after reset (10 R47). -/

namespace Sys2Proof.Machine

/-- A Timer or a reading of the clock: a number of milliseconds of `TIMER_BITS` bits (10 R38; log 12). -/
abbrev Timer := Nat

/-- A datagram buffer: written bytes by index, in canonical form (00 R11, 10 R36; log 11). -/
abbrev Memory := List Host.Cell

/-- `RxState` of one face (10 R21 to R27). -/
structure RxFace where
  /-- Shift register, newest sample in bit 0 (10 R22). -/
  bitstream : Byte
  /-- Partial byte with a sentinel; 0 is "searching for sync" (10 R24, R25). -/
  inputBuffer : Byte
  /-- Mailbox; bit 7 is the presence flag (10 R26). -/
  lastValue : Byte
  /-- Sticky flags: overflow 0, parity 1, dropout 2, noise 3 (10 R27). -/
  errorBits : BitVec 4
deriving DecidableEq, Repr, Inhabited

/-- The header register (10 R33, 30 R94). `nonSpecial` is hard-wired to 1 (10 R43) and so is no field: the byte view
`Header.toByte` supplies it (log 13). -/
structure Header where
  sequence : BitVec 3
  ackSequence : BitVec 3
  postponeSleep : Bool
deriving DecidableEq, Repr, Inhabited

/-- `FaceChannelState` of one face (10 R28 to R35). -/
structure FaceChannel where
  inValue : Byte
  expireTimer : Timer
  outValue : Byte
  sendTimer : Timer
  header : Header
  shadow : Byte
deriving DecidableEq, Repr, Inhabited

/-- A datagram slot: 16 bytes and a length of 0 to 16, 0 being empty (10 R36). -/
structure Slot where
  bytes : Memory
  len : Fin 17
deriving DecidableEq, Repr, Inhabited

/-- Answers of a port: those given, oldest first; when they are used up, free values numbered by `taken`, the count of
answers taken so far. -/
structure Feed (α : Type) where
  queue : List α
  taken : Nat
deriving DecidableEq, Repr

/-- An entry of `txTrace` (42 R150, R151). -/
inductive TxEvent where
  | pulse (mask : Mask) (count : Nat) (period : Nat)
  | idle (duration : Nat)
deriving DecidableEq, Repr

/-- A notification to the host (43 R184). -/
inductive HostEvent where
  | specialPacket (f : Face) (c : Byte)
  | postponeSleepSeen (f : Face)
deriving DecidableEq, Repr

/-- What a host operation returns (30 R102). -/
inductive Result where
  /-- `IR_POLL`: a 7-bit value or nothing. -/
  | poll (v : Option Phy)
  /-- `IR_GET_DATA`: a 7-bit value. -/
  | value (v : Phy)
  /-- `IR_READ_ERRORS`: four flags. -/
  | errors (e : BitVec 4)
  /-- `GET_INCOMING_VALUE`: a byte. -/
  | byte (v : Byte)
  /-- The operations that answer true or false, 1 or 0. -/
  | flag (b : Bool)
  /-- `DATAGRAM_LENGTH`: 0 to 16. -/
  | length (n : Fin 17)
  /-- `GET_DATAGRAM`: a list of bytes. -/
  | bytes (bs : List Byte)
deriving DecidableEq, Repr

/-- What a receive step has yet to treat of a packet reported on face `f`, each a row of the table: a header byte with the
datagram bytes behind it, or a special packet (43 R180). -/
inductive ReceivePart where
  | header (f : Face) (h : Byte) (payload : List Byte)
  | sleep (f : Face)
  | wake (f : Face)
deriving DecidableEq, Repr

/-- A frame to be sent: one `TX_BYTE` call. -/
structure Frame where
  mask : Mask
  value : Phy
deriving DecidableEq, Repr

/-- The position within a transmission (42 R158): `byte` counts the frames of the packet, `symbol` the nine symbols of the
frame, and `idle` says whether the next call is the symbol's `Idle` or still its `Pulse`. -/
structure Transmission where
  frames : List Frame
  byte : Nat
  symbol : Fin 9
  idle : Bool
deriving DecidableEq, Repr

/-- What a `SEND_STEP` has yet to do when the packet of `face` is sent: `sendTimer` is set past `now`, the reading made for
the face, and the faces `rest` are visited (43 R186). -/
structure SendRest where
  face : Face
  now : Timer
  rest : List Face
deriving DecidableEq, Repr

/-- Where the main loop is within an operation that runs in parts (60 R241; log 1). Only the machine gets there: a pulse
group, a header and a special packet are parts and no operations that a context may call (60 R242; logs 4, 24). -/
inductive MainPosition where
  /-- In `TX_BYTE`, `TX_PACKET`, or the packet of one face of `SEND_STEP`. -/
  | sending (x : Transmission) (after : Option SendRest)
  /-- In `SEND_STEP`, these faces still to be visited. -/
  | sendStep (fs : List Face)
  /-- In `RECEIVE_STEP`, these faces still to be visited. -/
  | receiveStep (fs : List Face)
  /-- In `RECEIVE_STEP`, which has yet to treat `r`, and then to visit the faces `fs`. -/
  | treating (r : ReceivePart) (fs : List Face)
deriving DecidableEq, Repr

/-- Where the sampler is within a `SAMPLE_STEP` that runs in parts (40 R111, R113; log 3). The step stays one action: nothing
of the main loop comes between its parts (20 R69). -/
inductive SamplerPosition where
  /-- The answer of `Sample()` is to be shifted into the faces `fs`. -/
  | shifting (sample : Mask) (fs : List Face)
  /-- Face `f` was shifted, its register is to be matched; then the faces `fs`. -/
  | matching (sample : Mask) (f : Face) (fs : List Face)
deriving DecidableEq, Repr

/-- An entry of the agenda: what the scheduler lets happen next (20 R71; log 1). -/
inductive Action where
  /-- An operation, whole. -/
  | run (c : Code)
  /-- An operation, in parts if it has any. -/
  | inParts (c : Code)
  /-- The main loop does the next part of the operation it is in. -/
  | proceed
deriving DecidableEq, Repr

/-- The four error conditions (60 R231). -/
inductive ErrorKind where
  | overflow
  | parity
  | dropout
  | noise
deriving DecidableEq, Repr

/-- The block has no fault outcome (60 R230): there is no fault reason. -/
inductive Fault where
deriving DecidableEq, Repr

/-- Why the model gives an operation no meaning (00 R15). Every one of these is safe: the model stops, and nothing is
claimed of what the hardware does. -/
inductive Refusal where
  /-- An arm of `exec` without a meaning; raised by `exec` only. Safe. -/
  | notModelled (mnemonic : String)
  /-- A face operand above 5 (43 R171); raised by every meaning with a face operand. Safe. -/
  | faceOutOfRange (f : Nat)
  /-- A mask of no face (42 R157, 30 R102); raised by the serializer's meanings. Safe. -/
  | emptyMask
  /-- `TX_BYTE` of 128 or more (42 R156). Safe. -/
  | phyValueTooWide (v : Byte)
  /-- `TX_PACKET` of no byte or of more than 18 (30 R96, 42 R159). Safe. -/
  | packetLength (count : Nat)
  /-- A packet whose byte 0 is 128 or more under the reference carrier (30 R101); raised by `TX_PACKET`, `SEND_STEP`. Safe. -/
  | faceValueTooWide (v : Byte)
  /-- `SEND_DATAGRAM` of a payload that begins with a reserved constant (44 R203). Safe. -/
  | reservedPayload (b : Byte)
  /-- `ENTER_SLEEP`, an operation of the out-of-scope sleep protocol (00 R5). Safe. -/
  | enterSleepOutOfScope
  /-- `NOTIFY_ACTIVITY`, an operation of the out-of-scope sleep protocol (00 R5). Safe. -/
  | notifyActivityOutOfScope
  /-- A code that stands for no instruction; raised by `step`. Safe. -/
  | undecodable (e : Reject)
  /-- A row that is a part of another operation, put on the agenda as an operation of its own: receive registers are written
  only in the sampling step (10 R21), pulses sent only through `TX_BYTE`, and the receive path's registers written only in
  `RECEIVE_STEP` (60 R242); raised by `step`. Safe. -/
  | partOfAnother (i : Instr)
  /-- A configuration with `PROBE_INTERVAL_MS >= EXPIRE_WINDOW_MS` (00 R7); raised by `step`. Safe. -/
  | probeNotBelowExpiry
  /-- A configuration whose `DROPOUT_ZERO_SAMPLES` the 8-bit shift register cannot measure: 0, or more than 8 (92 D6;
  log 10); raised by `step`. Safe. -/
  | dropoutNotMeasurable (n : Nat)
deriving DecidableEq, Repr

/-- The state of one tile's block. -/
structure State where
  /-- The parameters of 00 R6; written by no operation (log 9). -/
  config : Config
  /-- Receive registers (10 R21). -/
  rx : PerFace RxFace
  /-- Face-channel registers (10 R28). -/
  fc : PerFace FaceChannel
  /-- Inbound datagram slots (10 R36). -/
  dgIn : PerFace Slot
  /-- Outbound datagram slots (10 R36, R37). -/
  dgOut : PerFace Slot
  /-- The output trace of the pulse port (42 R150). -/
  txTrace : List TxEvent
  /-- The output trace of host events (43 R184). -/
  hostEvents : List HostEvent
  /-- Model's own: what the last value-returning operation returned (log 16). -/
  result : Option Result
  /-- Model's own: the pending actions, oldest first (20 R71; log 1). -/
  agenda : List Action
  /-- Model's own: where the main loop is within an operation that runs in parts (42 R158; log 1). -/
  mainAt : Option MainPosition
  /-- Model's own: where the sampler is within a sample step that runs in parts (40 R111; logs 1, 3). -/
  samplerAt : Option SamplerPosition
  /-- Model's own: the face on which `IR_GET_DATA` holds the main loop (41 R142; log 15). -/
  hold : Option Face
  /-- Model's own: the answers of `Sample()` (40 R110; log 5). -/
  samples : Feed Mask
  /-- Model's own: the answers of the clock (43 R172; log 6). -/
  clock : Feed Nat
  /-- Model's own: the sample steps before each poll inside a receive step or a held read (00 R17; logs 7, 15). -/
  ticks : Feed Nat
  /-- The state an uninterpreted carrier keeps between calls: all it has seen, newest first. R100 grants such state to
  `PKT_RX`; that `PKT_TX` shares it is the model's choice (30 R100; log 8). -/
  carrierLog : List CarrierEvent
  /-- Model's own: what an uninterpreted carrier does on receive (30 R100; log 8). -/
  carrierRx : Feed CarrierAnswer
  /-- Model's own: what an uninterpreted carrier sends (30 R100; log 8). -/
  carrierTx : Feed CarrierSend
deriving DecidableEq, Repr

/-- Every face's receive registers after reset: searching, mailbox empty, no error (10 R47). -/
def RxFace.reset : RxFace where
  bitstream := 0x00
  inputBuffer := 0x00
  lastValue := 0x00
  errorBits := 0b0000

/-- The header after reset, `0b10000000` (10 R33, R47). -/
def Header.reset : Header where
  sequence := 0
  ackSequence := 0
  postponeSleep := false

/-- A face channel after reset with the stagger offset of its face (10 R47); `inValue` is 0x00 before any value is received,
the one reset value the source states (10 R29, R48). -/
def FaceChannel.reset (stagger : Timer) : FaceChannel where
  inValue := 0x00
  expireTimer := 0
  outValue := 0x00
  sendTimer := stagger
  header := Header.reset
  shadow := 0x00

/-- An empty slot in which nothing has been written (10 R36, R47; log 11). -/
def Slot.reset : Slot where
  bytes := []
  len := 0

/-- A port of which no answer has been given or taken. -/
def Feed.fresh {α : Type} : Feed α where
  queue := []
  taken := 0

/-- The machine right after reset under a configuration (10 R47, 70 R260, R261). -/
def State.resetWith (cfg : Config) : State where
  config := cfg
  rx := PerFace.ofFn fun _ => RxFace.reset
  fc := PerFace.ofFn fun f => FaceChannel.reset (cfg.sendStaggerMs.get f)
  dgIn := PerFace.ofFn fun _ => Slot.reset
  dgOut := PerFace.ofFn fun _ => Slot.reset
  txTrace := []
  hostEvents := []
  result := none
  agenda := []
  mainAt := none
  samplerAt := none
  hold := none
  samples := Feed.fresh
  clock := Feed.fresh
  ticks := Feed.fresh
  carrierLog := []
  carrierRx := Feed.fresh
  carrierTx := Feed.fresh

/-- The machine right after reset, in the default configuration of 00 R6. -/
def State.reset : State := State.resetWith Config.default

end Sys2Proof.Machine
end

