-- ==== Sys2Proof/Machine/Flags.lean ====
section
/-! DEFINITION. The status flags (10 R42), the two states of a receiver (10 R24, R25) and the fields of the header byte
(30 R94, 44 R201). -/

namespace Sys2Proof.Machine

/-- The bit of `errorBits` of an error condition (10 R27, 60 R231). -/
def ErrorKind.flag : ErrorKind → BitVec 4
  | .overflow => 0b0001
  | .parity => 0b0010
  | .dropout => 0b0100
  | .noise => 0b1000

/-- No sync seen since the last frame ended or was aborted (10 R25). -/
def RxFace.searching (r : RxFace) : Bool := r.inputBuffer == 0x00

/-- Seven data bits received: the sentinel is in bit 7 (10 R24, 41 R133). -/
def RxFace.sevenBits (r : RxFace) : Bool := r.inputBuffer.getLsbD 7

/-- The seven data bits, `inputBuffer[6:0]` (30 R88). -/
def RxFace.dataBits (r : RxFace) : Phy := r.inputBuffer.setWidth 7

/-- The presence flag `lastValue[7]` (10 R26). -/
def RxFace.present (r : RxFace) : Bool := r.lastValue.getLsbD 7

/-- The value in the mailbox, `lastValue[6:0]` (10 R26). -/
def RxFace.mailValue (r : RxFace) : Phy := r.lastValue.setWidth 7

/-- The stored form of a delivered value, `0x80 | v` (30 R89). -/
def deliveredForm (v : Phy) : Byte := 0x80 ||| v.setWidth 8

/-- The header as the byte that is sent: `nonSpecial`, `postponeSleep`, `ackSequence`, `sequence` (30 R94). -/
def Header.toByte (h : Header) : Byte :=
  (1#1 ++ BitVec.ofBool h.postponeSleep ++ h.ackSequence ++ h.sequence : BitVec (1 + 1 + 3 + 3))

/-- `seq(h) = h[2:0]` (44 R201). -/
def headerSeq (h : Byte) : BitVec 3 := h.extractLsb' 0 3

/-- `ack(h) = h[5:3]` (44 R201). -/
def headerAck (h : Byte) : BitVec 3 := h.extractLsb' 3 3

/-- `pp(h) = h[6]` (44 R201). -/
def headerPostpone (h : Byte) : Bool := h.getLsbD 6

/-- `ns(h) = h[7]` (44 R201). -/
def headerNonSpecial (h : Byte) : Bool := h.getLsbD 7

end Sys2Proof.Machine
end

