-- ==== Sys2Proof/Machine/Ops.lean ====
section
/-! DEFINITION. The shared operations: raising and clearing errors (what this block has in place of exception entry and
return), ports and timers, datagram buffers, and the named updates of State. -/

namespace Sys2Proof.Machine

/-- The outcome of an operation. -/
abbrev Out := Host.Outcome State Fault Refusal

/-! ### Errors in place of exceptions -/

/-- Raise an error condition: its flag is set and the face returns to searching; nothing else changes and control goes
nowhere (60 R238, 00 R12). -/
def RxFace.raise (k : ErrorKind) (r : RxFace) : RxFace :=
  { r with errorBits := r.errorBits ||| k.flag, inputBuffer := 0x00 }

/-- There is no return from an error; the consumer clears all four flags together (60 R239, 41 R143). -/
def RxFace.clearErrors (r : RxFace) : RxFace := { r with errorBits := 0b0000 }

/-! ### Ports and timers -/

/-- The next answer of a port: the oldest given one, or a free value. -/
def Feed.peek {α : Type} (free : Nat → α) (p : Feed α) : α :=
  match p.queue with
  | [] => free p.taken
  | a :: _ => a

/-- The port after its next answer was taken. -/
def Feed.advance {α : Type} (p : Feed α) : Feed α where
  queue := p.queue.tail
  taken := p.taken + 1

/-- `NEVER`, all ones of `TIMER_BITS` bits (10 R38). -/
def neverOf (cfg : Config) : Timer := 2 ^ cfg.timerBits - 1

/-- `TimerSet(now, d)`, saturating, the sum taken without wrap-around (43 R173). -/
def timerSet (cfg : Config) (now d : Timer) : Timer :=
  if now + d ≥ neverOf cfg then neverOf cfg else now + d

/-- `Elapsed(t, now)` (43 R174). -/
def elapsed (cfg : Config) (t now : Timer) : Bool := decide (t ≠ neverOf cfg) && !decide (now < t)

/-- Why a configuration is refused, if it is: the required relation of the two intervals (00 R7), and a dropout length
that the shift register cannot measure (92 D6; log 10). -/
def configRefusal (cfg : Config) : Option Refusal :=
  if cfg.expireWindowMs ≤ cfg.probeIntervalMs then some .probeNotBelowExpiry
  else if cfg.dropoutZeroSamples = 0 ∨ Config.dropoutDefault < cfg.dropoutZeroSamples then
    some (.dropoutNotMeasurable cfg.dropoutZeroSamples)
  else none

/-- What `Now()` answers, an unsigned number of `TIMER_BITS` bits (43 R172). -/
def State.now (s : State) : Timer := s.clock.peek Config.freeClock % 2 ^ s.config.timerBits

/-- The state after `Now()` was read. -/
def State.afterNow (s : State) : State := { s with clock := s.clock.advance }

/-- What `Sample()` answers (40 R110). -/
def State.sample (s : State) : Mask := s.samples.peek Config.freeSample

/-! ### Datagram buffers -/

/-- `MemRead`: byte `i` of a buffer (00 R11); a byte never written reads as `Config.freshByte`. -/
def Memory.read : Memory → Nat → Byte
  | [], _ => Config.freshByte
  | (j, v) :: m, i => if i = j then v else Memory.read m i

/-- A buffer with `v` listed first at `i`, or not at all when an unlisted byte already reads so. -/
def Memory.put (i : Nat) (v : Byte) (m : Memory) : Memory :=
  if v = Config.freshByte then m else (i, v) :: m

/-- `MemWrite`: write byte `i` of a buffer (00 R11), keeping the canonical form. -/
def Memory.write : Memory → Nat → Byte → Memory
  | [], i, v => Memory.put i v []
  | (j, w) :: m, i, v =>
    if i < j then Memory.put i v ((j, w) :: m)
    else if i = j then Memory.put i v m
    else (j, w) :: Memory.write m i v

/-- Write a list of bytes at `i` and up. -/
def Memory.writeAll (m : Memory) (i : Nat) : List Byte → Memory
  | [] => m
  | b :: bs => Memory.writeAll (Memory.write m i b) (i + 1) bs

/-- The bytes `i` to `i + n - 1` of a buffer. -/
def Memory.readAll (m : Memory) (i : Nat) : Nat → List Byte
  | 0 => []
  | n + 1 => Memory.read m i :: Memory.readAll m (i + 1) n

/-- Are the listed indexes strictly rising from `lo` and below `hi`, and is no listed byte one that an unlisted index
reads as? -/
def Memory.canonicalFrom (lo hi : Nat) : Memory → Bool
  | [] => true
  | (i, v) :: m =>
    decide (lo ≤ i) && decide (i < hi) && decide (v ≠ Config.freshByte) && Memory.canonicalFrom (i + 1) hi m

/-- The canonical form of a 16-byte buffer. -/
def Memory.wf (m : Memory) : Bool := Memory.canonicalFrom 0 Config.datagramCapacity m

/-- Store a datagram of 1 to 16 bytes in a slot (44 R204, R212). -/
def Slot.fill (sl : Slot) (bs : List Byte) : Slot where
  bytes := Memory.writeAll sl.bytes 0 bs
  len := Fin.ofNat 17 bs.length

/-- Free a slot; its bytes are left as they are (44 R210, R217). -/
def Slot.free (sl : Slot) : Slot := { sl with len := 0 }

/-- The datagram in a slot, bytes 0 to `len - 1` (44 R216, 43 R187). -/
def Slot.content (sl : Slot) : List Byte := Memory.readAll sl.bytes 0 sl.len.val

/-- Does a slot hold a datagram (10 R36)? -/
def Slot.full (sl : Slot) : Bool := sl.len != 0

/-! ### Named updates of State -/

/-- Replace the receive registers of face `f`. -/
def State.setRx (s : State) (f : Face) (r : RxFace) : State := { s with rx := s.rx.set f r }

/-- Replace the face-channel registers of face `f`. -/
def State.setFc (s : State) (f : Face) (c : FaceChannel) : State := { s with fc := s.fc.set f c }

/-- Replace the inbound slot of face `f`. -/
def State.setDgIn (s : State) (f : Face) (sl : Slot) : State := { s with dgIn := s.dgIn.set f sl }

/-- Replace the outbound slot of face `f`. -/
def State.setDgOut (s : State) (f : Face) (sl : Slot) : State := { s with dgOut := s.dgOut.set f sl }

/-- Change the receive registers of face `f`. -/
def State.onRx (s : State) (f : Face) (g : RxFace → RxFace) : State := s.setRx f (g (s.rx.get f))

/-- Change the face-channel registers of face `f`. -/
def State.onFc (s : State) (f : Face) (g : FaceChannel → FaceChannel) : State := s.setFc f (g (s.fc.get f))

/-- Change the header register of face `f`. -/
def State.onHeader (s : State) (f : Face) (g : Header → Header) : State :=
  s.onFc f fun c => { c with header := g c.header }

/-- Return a value from a host operation. -/
def State.returns (s : State) (v : Result) : State := { s with result := some v }

/-- Record pulse-port calls, in order (42 R150, R151). -/
def State.transmit (s : State) (es : List TxEvent) : State := { s with txTrace := s.txTrace ++ es }

/-- `HostEvent(e)` (43 R184). -/
def State.notify (s : State) (e : HostEvent) : State := { s with hostEvents := s.hostEvents ++ [e] }

/-- The next pending action, and the state from which it runs (log 1). -/
def State.fetch (s : State) : Option (Action × State) :=
  match s.agenda with
  | [] => none
  | a :: rest => some (a, { s with agenda := rest })

end Sys2Proof.Machine
end

