-- ==== Sys2Proof/Machine/Operands.lean ====
section
/-! DEFINITION. Operand forms (30 R102): an operand outside its domain is refused (00 R15). -/

namespace Sys2Proof.Machine

/-- A face operand: refused when it is not in 0 to 5 (43 R171, 00 R10). -/
def withFace (f : Nat) (k : Face → Out) : Out :=
  if h : f < 6 then k ⟨f, h⟩ else .refused (.faceOutOfRange f)

/-- A mask operand: refused when it names no face (42 R157, 30 R102). -/
def withMask (m : Mask) (k : Out) : Out :=
  if m = 0 then .refused .emptyMask else k

/-- A PHY byte operand: refused when it is 128 or more (42 R156). -/
def withPhy (v : Byte) (k : Phy → Out) : Out :=
  if v.toNat < 128 then k (v.setWidth 7) else .refused (.phyValueTooWide v)

/-- A packet operand: 1 to 18 bytes (30 R96, 42 R159). -/
def withPacket (bytes : List Byte) (k : Packet → Out) : Out :=
  match bytes with
  | [] => .refused (.packetLength 0)
  | b :: bs => if bs.length + 1 ≤ Config.packetCapacity then k ⟨b, bs⟩ else .refused (.packetLength (bs.length + 1))

/-- A datagram operand: refused when it begins with a reserved constant (44 R203, 30 R99). -/
def withPayload (bytes : List Byte) (k : Out) : Out :=
  match bytes with
  | [] => k
  | b :: _ => if b = Config.sleepConst ∨ b = Config.wakeConst then .refused (.reservedPayload b) else k

/-- The mask of one face, `1 << f` (43 R186). -/
def faceMask (f : Face) : Mask := 1 <<< f.val

/-- The rows that are parts of another operation and that no context may call: the outcomes of the pattern match outside
`SAMPLE_STEP` (10 R21), pulse groups outside `TX_BYTE`, headers and special packets outside `RECEIVE_STEP` (60 R242; 30
preface; logs 3, 4, 24). -/
def partOnly (i : Instr) : Bool :=
  match i with
  | .symZero _ => true
  | .symOneAdj _ => true
  | .symOneSkew _ => true
  | .symSync _ => true
  | .rxDropout _ => true
  | .rxNoise1011 _ => true
  | .rxNoise1101 _ => true
  | .rxNoise10101 _ => true
  | .rxNone _ => true
  | .txsSync _ => true
  | .txsZero _ => true
  | .txsOne _ => true
  | .header _ _ _ => true
  | .specialSleep _ => true
  | .specialWake _ => true
  | _ => false

end Sys2Proof.Machine
end

