-- ==== Sys2Proof/Machine/Reassembler.lean ====
section
/-! DEFINITION. The symbol-to-byte reassembler and the consumer's operations (file 41). -/

namespace Sys2Proof.Machine

/-- `Deliver(f, v)`: overflow when a value is still unconsumed, and the newer value wins (41 R134). The frame has ended,
so `inputBuffer` is 0 already and stays 0 (60 R238). -/
def RxFace.deliver (v : Phy) (r : RxFace) : RxFace :=
  { (if r.present then r.raise .overflow else r) with lastValue := deliveredForm v }

/-- The eighth symbol ends the frame: it is compared with the parity of the seven data bits and not stored
(41 R133 to R135). -/
def RxFace.endFrame (bit : Bool) (r : RxFace) : RxFace :=
  let ended := { r with inputBuffer := 0x00 }
  if parityGood r.dataBits bit then ended.deliver r.dataBits else ended.raise .parity

/-- `OnBit(f, bit)` (41 R130 to R133). -/
def RxFace.onBit (bit : Bool) (r : RxFace) : RxFace :=
  if r.searching then r
  else if r.sevenBits then r.endFrame bit
  else { r with inputBuffer := (r.inputBuffer <<< 1) ||| (BitVec.ofBool bit).setWidth 8 }

/-- The read of `IR_POLL`: the value in the mailbox, or nothing (41 R140). -/
def RxFace.pollValue (r : RxFace) : Option Phy := if r.present then some r.mailValue else none

/-- The clear of `IR_POLL` (41 R140). -/
def RxFace.afterPoll (r : RxFace) : RxFace := if r.present then { r with lastValue := 0x00 } else r

/-- `IR_POLL f`, one critical section (41 R140, 20 R68). -/
def execIrPoll (f : Nat) (s : State) : Out :=
  withFace f fun f =>
    .next ((s.onRx f RxFace.afterPoll).returns (.poll (s.rx.get f).pollValue))

/-- The successful last step of `IR_GET_DATA` (41 R142, 20 R68). -/
def takeData (f : Face) (s : State) : State :=
  { (s.onRx f RxFace.afterPoll).returns (.value (s.rx.get f).mailValue) with hold := none }

/-- `IR_GET_DATA f`: takes a value, or holds the main loop until a sample step delivers one (41 R142; log 15). -/
def execIrGetData (f : Nat) (s : State) : Out :=
  withFace f fun f =>
    .next (if (s.rx.get f).present then takeData f s else { s with hold := some f })

/-- `IR_READ_ERRORS f`, one critical section (41 R143). -/
def execIrReadErrors (f : Nat) (s : State) : Out :=
  withFace f fun f =>
    .next ((s.onRx f RxFace.clearErrors).returns (.errors (s.rx.get f).errorBits))

end Sys2Proof.Machine
end

