-- ==== Sys2Proof/Machine/PulseSymbol.lean ====
section
/-! DEFINITION. The pulse-symbol decoder and the sample step (file 40). A sample-pattern operation is what one face does
when the newest samples have that pattern (40 R122); the sample step shifts, classifies and does it for every face (log 3). -/

namespace Sys2Proof.Machine

/-- The shift of a sample into `bitstream`, newest in bit 0 (40 R112). -/
def RxFace.shift (b : Bool) (r : RxFace) : RxFace :=
  { r with bitstream := (r.bitstream <<< 1) ||| (BitVec.ofBool b).setWidth 8 }

/-- `OnSync(f)`: unconditional (40 R118). -/
def RxFace.onSync (r : RxFace) : RxFace := { r with inputBuffer := 0b00000001 }

/-- A dropout value: aborts a frame in progress, is nothing to a searching face (40 R119, R120). -/
def RxFace.onDropout (r : RxFace) : RxFace := if r.searching then r else r.raise .dropout

/-- A noise value: aborts a frame in progress, is nothing to a searching face (40 R119, R121). -/
def RxFace.onNoise (r : RxFace) : RxFace := if r.searching then r else r.raise .noise

/-- What one face does on a class of samples (40 R122). -/
def RxFace.act (c : SampleClass) (r : RxFace) : RxFace :=
  match c with
  | .zero => r.onBit false
  | .oneAdj => r.onBit true
  | .oneSkew => r.onBit true
  | .sync => r.onSync
  | .dropout => r.onDropout
  | .noise1011 => r.onNoise
  | .noise1101 => r.onNoise
  | .noise10101 => r.onNoise
  | .nothing => r

/-- `RxFace(f, b)`: shift, then match on the value after the shift (40 R113); `dropout` is `DROPOUT_ZERO_SAMPLES`. -/
def RxFace.step (dropout : Nat) (b : Bool) (r : RxFace) : RxFace :=
  (r.shift b).act (classify dropout (r.shift b).bitstream)

/-- The sample step as a state update: one answer of `Sample()`, then every face (40 R111). -/
def sampleAll (s : State) : State :=
  { s with
    samples := s.samples.advance
    rx := PerFace.ofFn fun f => (s.rx.get f).step s.config.dropoutZeroSamples (s.sample.getLsbD f.val) }

/-- `n` sample steps. -/
def sampleTimes : Nat → State → State
  | 0, s => s
  | n + 1, s => sampleTimes n (sampleAll s)

/-- The sampler preempts the main loop for the number of sample steps that falls here (00 R17, 60 R241; log 7). -/
def preempt (s : State) : State :=
  sampleTimes (s.ticks.peek Config.freeTicks) { s with ticks := s.ticks.advance }

/-- One turn of the loop of `IR_GET_DATA` after the first: whatever sample steps fall here, then a poll; the hold lasts
until a poll finds a value (41 R142, 00 R17; log 15). -/
def whileHeld (f : Face) (s : State) : Out :=
  .next (if ((preempt s).rx.get f).present then takeData f (preempt s) else preempt s)

/-- `SAMPLE_STEP` (40 R111). -/
def execSampleStep (s : State) : Out := .next (sampleAll s)

/-- `SYM_ZERO` on face `f` (40 R115). -/
def execSymZero (f : Nat) (s : State) : Out :=
  withFace f fun f => .next (s.onRx f (RxFace.act .zero))

/-- `SYM_ONE_ADJ` on face `f` (40 R116). -/
def execSymOneAdj (f : Nat) (s : State) : Out :=
  withFace f fun f => .next (s.onRx f (RxFace.act .oneAdj))

/-- `SYM_ONE_SKEW` on face `f` (40 R117). -/
def execSymOneSkew (f : Nat) (s : State) : Out :=
  withFace f fun f => .next (s.onRx f (RxFace.act .oneSkew))

/-- `SYM_SYNC` on face `f` (40 R118). -/
def execSymSync (f : Nat) (s : State) : Out :=
  withFace f fun f => .next (s.onRx f (RxFace.act .sync))

/-- `RX_DROPOUT` on face `f` (40 R120). -/
def execRxDropout (f : Nat) (s : State) : Out :=
  withFace f fun f => .next (s.onRx f (RxFace.act .dropout))

/-- `RX_NOISE` `1011` on face `f` (40 R121). -/
def execRxNoise1011 (f : Nat) (s : State) : Out :=
  withFace f fun f => .next (s.onRx f (RxFace.act .noise1011))

/-- `RX_NOISE` `1101` on face `f` (40 R121). -/
def execRxNoise1101 (f : Nat) (s : State) : Out :=
  withFace f fun f => .next (s.onRx f (RxFace.act .noise1101))

/-- `RX_NOISE` `10101` on face `f` (40 R121). -/
def execRxNoise10101 (f : Nat) (s : State) : Out :=
  withFace f fun f => .next (s.onRx f (RxFace.act .noise10101))

/-- `RX_NONE` on face `f`: changes nothing but the shift made before it (40 R119). -/
def execRxNone (f : Nat) (s : State) : Out :=
  withFace f fun f => .next (s.onRx f (RxFace.act .nothing))

end Sys2Proof.Machine
end

