-- ==== Sys2Proof/Machine/Serializer.lean ====
section
/-! DEFINITION. The byte-to-pulse serializer (file 42) and the packet carrier (30 R100, R101). -/

namespace Sys2Proof.Machine

/-- The pulse group of a sync: four flashes and the gap (42 R152). -/
def syncGroup (cfg : Config) (m : Mask) : List TxEvent :=
  [.pulse m Config.syncPulses cfg.tSyncGapUs, .idle cfg.tSymbolGapUs]

/-- The pulse group of a bit: one flash for 0, two for 1, and the gap (42 R153, R154). -/
def bitGroup (cfg : Config) (m : Mask) (bit : Bool) : List TxEvent :=
  [.pulse m (if bit then 2 else 1) cfg.tBitGapUs, .idle cfg.tSymbolGapUs]

/-- The eight bits of a frame in sending order: `v[6]` to `v[0]`, then the parity bit (30 R86). -/
def frameBits (v : Phy) : List Bool :=
  [v[6], v[5], v[4], v[3], v[2], v[1], v[0], parityBit v]

/-- What `TX_BYTE` appends to `txTrace` (42 R155). -/
def frameTrace (cfg : Config) (m : Mask) (v : Phy) : List TxEvent :=
  syncGroup cfg m ++ (frameBits v).flatMap (bitGroup cfg m)

/-- The pulse group of the `k`-th symbol of a frame: the sync, then the eight bits (42 R155, R158). -/
def symbolGroup (cfg : Config) (fr : Frame) (k : Fin 9) : List TxEvent :=
  match k.val with
  | 0 => syncGroup cfg fr.mask
  | j + 1 => bitGroup cfg fr.mask ((frameBits fr.value).getD j false)

/-- The call a transmission makes next: the `Pulse` or the `Idle` of its symbol (42 R158). -/
def Transmission.call (cfg : Config) (x : Transmission) : List TxEvent :=
  match x.frames[x.byte]? with
  | some fr => ((symbolGroup cfg fr x.symbol).drop x.idle.toNat).take 1
  | none => []

/-- The position after that call, or none at the end (42 R158). -/
def Transmission.next (x : Transmission) : Option Transmission :=
  if x.idle = false then some { x with idle := true }
  else if x.symbol.val < 8 then some { x with symbol := x.symbol + 1, idle := false }
  else if x.byte + 1 < x.frames.length then some { x with byte := x.byte + 1, symbol := 0, idle := false }
  else none

/-- The frames an uninterpreted carrier sends for a packet: those given for it, or free (30 R100; log 8). -/
def carrierFrames (m : Mask) (p : Packet) (s : State) : List CarrierFrame :=
  let free := Config.freeCarrierTx s.carrierTx.taken s.carrierLog m p
  match s.carrierTx.queue with
  | a :: _ => if a.packet = p then a.frames else free
  | [] => free

/-- The mask of one frame of a packet: those faces of the packet's mask that the carrier picks, or all of them. That a
carrier serves no other face is the model's reading of "sends a packet on every face of `mask`" (30 R100; log 8). -/
def frameMask (m part : Mask) : Mask := if m &&& part = 0 then m else m &&& part

/-- The hand-over of a packet: the `TX_BYTE` calls the carrier makes for it, and the state in which it makes them; or a
refusal (30 R100, R101). With which masks a carrier calls `TX_BYTE` the spec leaves open: each frame goes to a part of the
packet's mask that the carrier picks (log 8). DESIGN CHOICE: of state between calls R100 speaks only for `PKT_RX`; that
`PKT_TX` too may use and extend the carrier's own state, `carrierLog`, is the model's choice (log 8). -/
def packetFrames (m : Mask) (p : Packet) (s : State) : Except Refusal (List Frame × State) :=
  match s.config.carrier with
  | .faceOnly =>
    if p.first.toNat < 128 then .ok ([⟨m, p.first.setWidth 7⟩], s) else .error (.faceValueTooWide p.first)
  | .uninterpreted =>
    .ok ((carrierFrames m p s).map fun c => ⟨frameMask m c.part, c.value⟩,
      { s with carrierTx := s.carrierTx.advance, carrierLog := .handed m p :: s.carrierLog })

/-- The calls recorded for a list of frames (42 R155). -/
def framesTrace (cfg : Config) (frs : List Frame) : List TxEvent :=
  frs.flatMap fun fr => frameTrace cfg fr.mask fr.value

/-- `PKT_TX(mask, bytes)`: the state after the packet was sent, or a refusal (30 R100, R101). -/
def packetTx (m : Mask) (p : Packet) (s : State) : Except Refusal State :=
  match packetFrames m p s with
  | .ok (frs, t) => .ok (t.transmit (framesTrace s.config frs))
  | .error e => .error e

/-- One poll of a carrier: `IR_POLL f`, whose answer the carrier keeps (30 R100). -/
def pollOnce (f : Face) (s : State) : State :=
  { s.onRx f RxFace.afterPoll with carrierLog := .polled f (s.rx.get f).pollValue :: s.carrierLog }

/-- Poll the mailbox of face `f` up to `n` times, as long as the carrier wants to go `again`, sample steps falling before
each poll; was a value consumed? -/
def pollTimes (f : Face) (again : List CarrierEvent → Bool) : Nat → State → Bool × State
  | 0, s => (false, s)
  | n + 1, s =>
    if again s.carrierLog then
      let s := preempt s
      let rest := pollTimes f again n (pollOnce f s)
      ((s.rx.get f).present || rest.1, rest.2)
    else (false, s)

/-- How often an uninterpreted carrier may poll in its next call: as given, or free (log 8). -/
def carrierPolls (f : Face) (s : State) : Nat :=
  match s.carrierRx.queue with
  | a :: _ => a.polls
  | [] => Config.freeCarrierPolls s.carrierRx.taken s.carrierLog f

/-- Does it poll again, having seen `log`: always when the answer is given, else free (log 8). -/
def carrierAgain (f : Face) (s : State) (log : List CarrierEvent) : Bool :=
  match s.carrierRx.queue with
  | _ :: _ => true
  | [] => Config.freeCarrierAgain s.carrierRx.taken log f

/-- The packet it reports, having seen `log`: as given, or free (log 8). -/
def carrierPacket (f : Face) (s : State) (log : List CarrierEvent) : Option Packet :=
  match s.carrierRx.queue with
  | a :: _ => a.packet
  | [] => Config.freeCarrierPacket s.carrierRx.taken log f

/-- What `PKT_RX(f)` answers: whether a PHY byte was consumed, and a packet if one is complete (30 R100). -/
structure Received where
  saw : Bool
  packet : Option Packet
  state : State

/-- `PKT_RX(f)` (30 R100, R101). -/
def packetRx (f : Face) (s : State) : Received :=
  match s.config.carrier with
  | .faceOnly =>
    let s := preempt s
    let v := (s.rx.get f).pollValue
    { saw := v.isSome
      packet := v.map fun v => ⟨v.setWidth 8, []⟩
      state := s.onRx f RxFace.afterPoll }
  | .uninterpreted =>
    let r := pollTimes f (carrierAgain f s) (carrierPolls f s) { s with carrierRx := s.carrierRx.advance }
    { saw := r.1, packet := carrierPacket f s r.2.carrierLog, state := r.2 }

/-- A transmission's outcome. -/
def sent (r : Except Refusal State) : Out :=
  match r with
  | .ok s => .next s
  | .error e => .refused e

/-- `TXS_SYNC mask` (42 R152), a part of `TX_BYTE` (60 R242; log 24). -/
def execTxsSync (m : Mask) (s : State) : Out :=
  withMask m (.next (s.transmit (syncGroup s.config m)))

/-- `TXS_ZERO mask` (42 R153), a part of `TX_BYTE` (60 R242; log 24). -/
def execTxsZero (m : Mask) (s : State) : Out :=
  withMask m (.next (s.transmit (bitGroup s.config m false)))

/-- `TXS_ONE mask` (42 R154), a part of `TX_BYTE` (60 R242; log 24). -/
def execTxsOne (m : Mask) (s : State) : Out :=
  withMask m (.next (s.transmit (bitGroup s.config m true)))

/-- `TX_BYTE mask, v` (42 R155 to R157). -/
def execTxByte (m : Mask) (v : Byte) (s : State) : Out :=
  withMask m (withPhy v fun v => .next (s.transmit (frameTrace s.config m v)))

/-- `TX_PACKET mask, bytes` (42 R159). -/
def execTxPacket (m : Mask) (bytes : List Byte) (s : State) : Out :=
  withMask m (withPacket bytes fun p => sent (packetTx m p s))

end Sys2Proof.Machine
end

