-- ==== Sys2Proof/Machine/Datagram.lean ====
section
/-! DEFINITION. The datagram retransmission sequencer (file 44). -/

namespace Sys2Proof.Machine

/-- A received header with `postponeSleep = 1` is reported (44 R221). -/
def reportPostpone (f : Face) (h : Byte) (s : State) : State :=
  if headerPostpone h then s.notify (.postponeSleepSeen f) else s

/-- The acknowledgement rule: a matching `ack` empties the outbound slot (44 R210). -/
def acknowledge (f : Face) (h : Byte) (s : State) : State :=
  if headerAck h = (s.fc.get f).header.sequence then s.setDgOut f (s.dgOut.get f).free else s

/-- Is the datagram behind a header accepted: a payload, a new number, and an empty slot (44 R212)? -/
def accepts (f : Face) (h : Byte) (payload : List Byte) (s : State) : Bool :=
  decide (1 ≤ payload.length) && headerSeq h != (s.fc.get f).header.ackSequence && !(s.dgIn.get f).full

/-- Acceptance: the payload is stored and its number recorded (44 R212). -/
def accept (f : Face) (h : Byte) (payload : List Byte) (s : State) : State :=
  if accepts f h payload s then
    (s.setDgIn f ((s.dgIn.get f).fill payload)).onHeader f fun x => { x with ackSequence := headerSeq h }
  else s

/-- `DatagramReceive(f, p)` for a packet with header `h` and `payload` behind it (44 R207, R208). -/
def datagramReceive (f : Face) (h : Byte) (payload : List Byte) (s : State) : State :=
  if headerNonSpecial h && decide (payload.length ≤ Config.datagramCapacity) then
    accept f h payload (acknowledge f h (reportPostpone f h s))
  else s

/-- `HEADER`: the receive step's treatment of a header byte and the datagram bytes behind it (30 R94; 44 R207; log 4). -/
def execHeader (f : Nat) (h : Byte) (payload : List Byte) (s : State) : Out :=
  withFace f fun f => .next (datagramReceive f h payload s)

/-- May a datagram of these bytes be armed on face `f` (44 R202)? -/
def canArm (f : Face) (bytes : List Byte) (s : State) : Bool :=
  !(s.dgOut.get f).full && decide (1 ≤ bytes.length) && decide (bytes.length ≤ Config.datagramCapacity)

/-- Arming: the payload is stored and the sequence number incremented modulo 8 (44 R204). -/
def arm (f : Face) (bytes : List Byte) (s : State) : State :=
  (s.setDgOut f ((s.dgOut.get f).fill bytes)).onHeader f fun x => { x with sequence := x.sequence + 1 }

/-- `SEND_DATAGRAM f, bytes` (44 R202 to R204). -/
def execSendDatagram (f : Nat) (bytes : List Byte) (s : State) : Out :=
  withFace f fun f =>
    withPayload bytes
      (.next (if canArm f bytes s then (arm f bytes s).returns (.flag true) else s.returns (.flag false)))

/-- `IS_DATAGRAM_PENDING f` (44 R205). -/
def execIsDatagramPending (f : Nat) (s : State) : Out :=
  withFace f fun f => .next (s.returns (.flag (s.dgOut.get f).full))

/-- `IS_DATAGRAM_READY f` (44 R214). -/
def execIsDatagramReady (f : Nat) (s : State) : Out :=
  withFace f fun f => .next (s.returns (.flag (s.dgIn.get f).full))

/-- `DATAGRAM_LENGTH f` (44 R215). -/
def execDatagramLength (f : Nat) (s : State) : Out :=
  withFace f fun f => .next (s.returns (.length (s.dgIn.get f).len))

/-- `GET_DATAGRAM f` (44 R216). -/
def execGetDatagram (f : Nat) (s : State) : Out :=
  withFace f fun f => .next (s.returns (.bytes (s.dgIn.get f).content))

/-- `CONSUME_DATAGRAM f` (44 R217). -/
def execConsumeDatagram (f : Nat) (s : State) : Out :=
  withFace f fun f => .next (s.setDgIn f (s.dgIn.get f).free)

/-- `SET_POSTPONE_SLEEP f, b` (44 R220). -/
def execSetPostponeSleep (f : Nat) (b : Bool) (s : State) : Out :=
  withFace f fun f => .next (s.onHeader f fun x => { x with postponeSleep := b })

end Sys2Proof.Machine
end

