-- ==== Sys2Proof/Machine/FaceChannel.lean ====
section
/-! DEFINITION. The per-face timers and the retransmission sequencer (file 43). -/

namespace Sys2Proof.Machine

/-- `IsSpecial(p)`: exactly two bytes, equal, and a reserved constant (43 R185). -/
def isSpecial (p : Packet) : Bool :=
  p.rest == [p.first] && (p.first == Config.sleepConst || p.first == Config.wakeConst)

/-- The expiry refresh: every consumed PHY byte moves the deadline (43 R181). -/
def refreshExpiry (f : Face) (now : Timer) (s : State) : State :=
  s.onFc f fun c => { c with expireTimer := timerSet s.config now s.config.expireWindowMs }

/-- A normal packet: the face value is written and a reply made due at once (43 R182, R183). -/
def takeFaceValue (f : Face) (now : Timer) (v : Byte) (s : State) : State :=
  s.onFc f fun c => { c with inValue := v, sendTimer := timerSet s.config now 0 }

/-- What the receive step does with a complete packet (43 R180, R182 to R185). -/
def handlePacket (f : Face) (now : Timer) (p : Packet) (s : State) : State :=
  if isSpecial p then s.notify (.specialPacket f p.first)
  else
    match p.rest with
    | [] => takeFaceValue f now p.first s
    | h :: payload => datagramReceive f h payload (takeFaceValue f now p.first s)

/-- What the receive step does on face `f` with the clock reading and the carrier's answer (43 R180). -/
def handleReceived (f : Face) (now : Timer) (saw : Bool) (pkt : Option Packet) (s : State) : State :=
  let s := if saw then refreshExpiry f now s else s
  match pkt with
  | none => s
  | some p => handlePacket f now p s

/-- The receive step on one face (43 R180). -/
def receiveFace (f : Face) (s : State) : State :=
  let r := packetRx f s.afterNow
  handleReceived f s.now r.saw r.packet r.state

/-- The receive step on a list of faces in order. -/
def receiveFaces : List Face → State → State
  | [], s => s
  | f :: fs, s => receiveFaces fs (receiveFace f s)

/-- `RECEIVE_STEP` (43 R180). -/
def execReceiveStep (s : State) : Out := .next (receiveFaces allFaces s)

/-! ### The receive step in parts (60 R242; log 4) -/

/-- The row of the table that a part is. -/
def ReceivePart.instr (r : ReceivePart) : Instr :=
  match r with
  | .header f h payload => .header f.val h payload
  | .sleep f => .specialSleep f.val
  | .wake f => .specialWake f.val

/-- The part that the carrier's answer on face `f` leaves to be treated, if any: a header, or a special packet whose last
byte was just consumed. -/
def partOf (f : Face) (saw : Bool) (pkt : Option Packet) : Option ReceivePart :=
  match pkt with
  | none => none
  | some p =>
    if isSpecial p then
      if saw then some (if p.first == Config.sleepConst then .sleep f else .wake f) else none
    else
      match p.rest with
      | [] => none
      | h :: payload => some (.header f h payload)

/-- The visit of one face up to the part that is left: all of it, all before the header, or the polls alone when the
special packet's row reads the clock itself (43 R180). -/
def visitFace (f : Face) (s : State) : State × Option ReceivePart :=
  let r := packetRx f s.afterNow
  match partOf f r.saw r.packet with
  | none => (receiveFace f s, none)
  | some (.header g h payload) =>
    (handleReceived f s.now r.saw (r.packet.map fun p => ⟨p.first, []⟩) r.state, some (.header g h payload))
  | some (.sleep g) => ((packetRx f s).state, some (.sleep g))
  | some (.wake g) => ((packetRx f s).state, some (.wake g))

/-- `SPECIAL_SLEEP` on face `f`: the receive step's treatment of the packet `[0x15, 0x15]` (30 R98, 43 R185; log 4). -/
def execSpecialSleep (f : Nat) (s : State) : Out :=
  withFace f fun f =>
    .next (handleReceived f s.now true (some ⟨Config.sleepConst, [Config.sleepConst]⟩) s.afterNow)

/-- `SPECIAL_WAKE` on face `f`: the receive step's treatment of the packet `[0x33, 0x33]` (30 R98, 43 R185; log 4). -/
def execSpecialWake (f : Nat) (s : State) : Out :=
  withFace f fun f =>
    .next (handleReceived f s.now true (some ⟨Config.wakeConst, [Config.wakeConst]⟩) s.afterNow)

/-- `OutPacket(f)`: face value, header, and the pending datagram (43 R187). -/
def outPacket (f : Face) (s : State) : Packet where
  first := (s.fc.get f).outValue
  rest := (s.fc.get f).header.toByte :: (s.dgOut.get f).content

/-- The rescheduling after a transmission, past the clock reading made for the face (43 R188). -/
def reschedule (f : Face) (now : Timer) (s : State) : State :=
  s.onFc f fun c => { c with sendTimer := timerSet s.config now s.config.probeIntervalMs }

/-- The send step on one face (43 R186, R188). -/
def sendFace (f : Face) (s : State) : Except Refusal State :=
  if elapsed s.config (s.fc.get f).sendTimer s.now then
    match packetTx (faceMask f) (outPacket f s) s.afterNow with
    | .ok t => .ok (reschedule f s.now t)
    | .error e => .error e
  else .ok s.afterNow

/-- The send step on a list of faces in order. -/
def sendFaces : List Face → State → Except Refusal State
  | [], s => .ok s
  | f :: fs, s =>
    match sendFace f s with
    | .ok t => sendFaces fs t
    | .error e => .error e

/-- `SEND_STEP` (43 R186). -/
def execSendStep (s : State) : Out := sent (sendFaces allFaces s)

/-- `SET_OUTGOING_VALUE f, v` (43 R190). -/
def execSetOutgoingValue (f : Nat) (v : Byte) (s : State) : Out :=
  withFace f fun f => .next (s.onFc f fun c => { c with outValue := v })

/-- `SET_OUTGOING_VALUE_ALL v`: `SET_OUTGOING_VALUE f, v` for every face (43 R191, 30 R103). -/
def execSetOutgoingValueAll (v : Byte) (s : State) : Out :=
  .next { s with fc := PerFace.ofFn fun f => { s.fc.get f with outValue := v } }

/-- `GET_INCOMING_VALUE f` (43 R192). -/
def execGetIncomingValue (f : Nat) (s : State) : Out :=
  withFace f fun f => .next (s.returns (.byte (s.fc.get f).inValue))

/-- `DID_VALUE_CHANGE f` (43 R193). -/
def execDidValueChange (f : Nat) (s : State) : Out :=
  withFace f fun f =>
    let c := s.fc.get f
    .next ((s.setFc f { c with shadow := c.inValue }).returns (.flag (c.inValue != c.shadow)))

/-- Has the expiry deadline of face `f` passed at this clock reading (43 R194)? -/
def expiredAt (s : State) (now : Timer) (f : Face) : Bool := elapsed s.config (s.fc.get f).expireTimer now

/-- `IS_EXPIRED f` (43 R194). -/
def execIsExpired (f : Nat) (s : State) : Out :=
  withFace f fun f => .next (s.afterNow.returns (.flag (expiredAt s s.now f)))

/-- `IS_ALONE`: all six faces expired at one reading of the clock (43 R195, 30 R103). -/
def execIsAlone (s : State) : Out :=
  .next (s.afterNow.returns (.flag (allFaces.all (expiredAt s s.now))))

end Sys2Proof.Machine
end

