-- ==== Sys2Proof/Machine/Sleep.lean ====
section
/-! DEFINITION. The two operations of the out-of-scope sleep protocol: refused by name (00 R4, R5, 92 D39). -/

namespace Sys2Proof.Machine

/-- `ENTER_SLEEP`: "A model of this block gives them no meaning and refuses them by name." (00 R5) -/
def execEnterSleep (_ : State) : Out := .refused .enterSleepOutOfScope

/-- `NOTIFY_ACTIVITY`: "A model of this block gives them no meaning and refuses them by name." (00 R5) -/
def execNotifyActivity (_ : State) : Out := .refused .notifyActivityOutOfScope

end Sys2Proof.Machine
end

