-- ==== Sys2Proof/Machine/Dispatch.lean ====
section
/-! DEFINITION. One arm for each constructor of Instr. -/

namespace Sys2Proof.Machine

def exec (i : Instr) (s : State) : Host.Outcome State Fault Refusal :=
  match i with
  | .symZero f => Sys2Proof.Machine.execSymZero f s
  | .symOneAdj f => Sys2Proof.Machine.execSymOneAdj f s
  | .symOneSkew f => Sys2Proof.Machine.execSymOneSkew f s
  | .symSync f => Sys2Proof.Machine.execSymSync f s
  | .rxDropout f => Sys2Proof.Machine.execRxDropout f s
  | .rxNoise1011 f => Sys2Proof.Machine.execRxNoise1011 f s
  | .rxNoise1101 f => Sys2Proof.Machine.execRxNoise1101 f s
  | .rxNoise10101 f => Sys2Proof.Machine.execRxNoise10101 f s
  | .rxNone f => Sys2Proof.Machine.execRxNone f s
  | .txsSync mask => Sys2Proof.Machine.execTxsSync mask s
  | .txsZero mask => Sys2Proof.Machine.execTxsZero mask s
  | .txsOne mask => Sys2Proof.Machine.execTxsOne mask s
  | .txByte mask v => Sys2Proof.Machine.execTxByte mask v s
  | .txPacket mask bytes => Sys2Proof.Machine.execTxPacket mask bytes s
  | .sampleStep => Sys2Proof.Machine.execSampleStep s
  | .irPoll f => Sys2Proof.Machine.execIrPoll f s
  | .irGetData f => Sys2Proof.Machine.execIrGetData f s
  | .irReadErrors f => Sys2Proof.Machine.execIrReadErrors f s
  | .receiveStep => Sys2Proof.Machine.execReceiveStep s
  | .sendStep => Sys2Proof.Machine.execSendStep s
  | .setOutgoingValue f v => Sys2Proof.Machine.execSetOutgoingValue f v s
  | .setOutgoingValueAll v => Sys2Proof.Machine.execSetOutgoingValueAll v s
  | .getIncomingValue f => Sys2Proof.Machine.execGetIncomingValue f s
  | .didValueChange f => Sys2Proof.Machine.execDidValueChange f s
  | .isExpired f => Sys2Proof.Machine.execIsExpired f s
  | .isAlone => Sys2Proof.Machine.execIsAlone s
  | .sendDatagram f bytes => Sys2Proof.Machine.execSendDatagram f bytes s
  | .isDatagramPending f => Sys2Proof.Machine.execIsDatagramPending f s
  | .isDatagramReady f => Sys2Proof.Machine.execIsDatagramReady f s
  | .datagramLength f => Sys2Proof.Machine.execDatagramLength f s
  | .getDatagram f => Sys2Proof.Machine.execGetDatagram f s
  | .consumeDatagram f => Sys2Proof.Machine.execConsumeDatagram f s
  | .setPostponeSleep f b => Sys2Proof.Machine.execSetPostponeSleep f b s
  | .enterSleep => Sys2Proof.Machine.execEnterSleep s
  | .notifyActivity => Sys2Proof.Machine.execNotifyActivity s
  | .header f h payload => Sys2Proof.Machine.execHeader f h payload s
  | .specialSleep f => Sys2Proof.Machine.execSpecialSleep f s
  | .specialWake f => Sys2Proof.Machine.execSpecialWake f s

end Sys2Proof.Machine
end

