-- ==== Sys2Proof/Machine/Parts.lean ====
section
/-! DEFINITION. Operations in parts (logs 1, 3, 4, 24): `TX_BYTE`, `TX_PACKET` and `SEND_STEP` split at their `Pulse` and
`Idle` calls (42 R158), `RECEIVE_STEP` at its faces and at the header or special packet of a face, `SAMPLE_STEP` at the shift
and the outcome of each face. In whole and in parts they come to the same state; between the parts of an operation of the
main loop sample steps may fall (00 R17), nothing else. -/

namespace Sys2Proof.Machine

/-! ### Transmissions -/

/-- Go on with a `SEND_STEP` that has yet to visit these faces, or end it. -/
def sendStepAt (fs : List Face) : Option MainPosition :=
  match fs with
  | [] => none
  | f :: fs => some (.sendStep (f :: fs))

/-- The end of a transmission: what `SEND_STEP` does behind it, if it is one of its own (43 R186). -/
def sendingDone (after : Option SendRest) (s : State) : State :=
  match after with
  | none => { s with mainAt := none }
  | some r => { reschedule r.face r.now s with mainAt := sendStepAt r.rest }

/-- The position `x`, or the end. -/
def sendingAt (x : Option Transmission) (after : Option SendRest) (s : State) : State :=
  match x with
  | some x => { s with mainAt := some (.sending x after) }
  | none => sendingDone after s

/-- Before the first call for a list of frames; a carrier may send none. -/
def Transmission.start (frs : List Frame) : Option Transmission :=
  match frs with
  | [] => none
  | fr :: frs => some ⟨fr :: frs, 0, 0, false⟩

/-- Hand a packet over and stand before the first of its calls. -/
def startPacket (m : Mask) (p : Packet) (after : Option SendRest) (s : State) : Out :=
  match packetFrames m p s with
  | .ok (frs, t) => .next (sendingAt (Transmission.start frs) after t)
  | .error e => .refused e

/-- The send step comes to its next face (43 R186). -/
def sendVisit (fs : List Face) (s : State) : Out :=
  match fs with
  | [] => .next { s with mainAt := none }
  | f :: fs =>
    if elapsed s.config (s.fc.get f).sendTimer s.now then
      startPacket (faceMask f) (outPacket f s) (some ⟨f, s.now, fs⟩) s.afterNow
    else .next { s.afterNow with mainAt := sendStepAt fs }

/-! ### The receive step -/

/-- Go on with a `RECEIVE_STEP` that has yet to visit these faces, or end it. -/
def receiveStepAt (fs : List Face) : Option MainPosition :=
  match fs with
  | [] => none
  | f :: fs => some (.receiveStep (f :: fs))

/-- The receive step comes to its next face (43 R180). -/
def receiveVisit (fs : List Face) (s : State) : State :=
  match fs with
  | [] => { s with mainAt := none }
  | f :: fs =>
    match visitFace f s with
    | (t, none) => { t with mainAt := receiveStepAt fs }
    | (t, some r) => { t with mainAt := some (.treating r fs) }

/-! ### The sample step -/

/-- Go on with a `SAMPLE_STEP` that has yet to shift these faces, or end it. -/
def samplerStepAt (sample : Mask) (fs : List Face) : Option SamplerPosition :=
  match fs with
  | [] => none
  | f :: fs => some (.shifting sample (f :: fs))

/-- The sampler takes its sample and stands before the first face (40 R111). -/
def startSampleStep (s : State) : State :=
  { s with samples := s.samples.advance, samplerAt := some (.shifting s.sample allFaces) }

/-- The next part of a sample step: a shift, or the outcome that the register of the face decodes to (40 R112, R113). -/
def samplerPart (p : SamplerPosition) (s : State) : Out :=
  match p with
  | .shifting _ [] => .next { s with samplerAt := none }
  | .shifting sample (f :: fs) =>
    .next { s.onRx f (RxFace.shift (sample.getLsbD f.val)) with samplerAt := some (.matching sample f fs) }
  | .matching sample f fs =>
    exec ((classify s.config.dropoutZeroSamples (s.rx.get f).bitstream).instr f.val)
      { s with samplerAt := samplerStepAt sample fs }

/-! ### Scheduling -/

/-- The next part of the operation the main loop is in. -/
def mainPart (p : MainPosition) (s : State) : Out :=
  match p with
  | .sending x after => .next (sendingAt x.next after (s.transmit (x.call s.config)))
  | .sendStep fs => sendVisit fs s
  | .receiveStep fs => .next (receiveVisit fs s)
  | .treating r fs => exec r.instr { s with mainAt := receiveStepAt fs }

/-- Begin an operation in parts; one that has no parts runs whole. -/
def start (i : Instr) (s : State) : Out :=
  match i with
  | .sampleStep => .next (startSampleStep s)
  | .txByte m v => withMask m (withPhy v fun v => .next (sendingAt (Transmission.start [⟨m, v⟩]) none s))
  | .txPacket m bytes => withMask m (withPacket bytes fun p => startPacket m p none s)
  | .sendStep => .next { s with mainAt := sendStepAt allFaces }
  | .receiveStep => .next { s with mainAt := receiveStepAt allFaces }
  | i => exec i s

/-- Decode and run, unless the code stands for a part of another operation (10 R21, 60 R242) or for nothing. -/
def runCode (k : Instr → State → Out) (c : Code) (s : State) : Out :=
  match decode c with
  | .ok i => if partOnly i then .refused (.partOfAnother i) else k i s
  | .error e => .refused (.undecodable e)

/-- Run the next entry of the agenda with no operation under way. -/
def runAction (a : Action) (s : State) : Out :=
  match a with
  | .run c => runCode exec c s
  | .inParts c => runCode start c s
  | .proceed => .next s

/-- Is a code the sampler's operation? -/
def isSampleStep (c : Code) : Bool := decode c == .ok .sampleStep

/-- One step while an operation of the main loop is under way: a sample step if the scheduler lets one fall here, else the
next part; the main loop's other operations wait until it has run to its end (00 R17, 42 R160). -/
def whileUnderWay (p : MainPosition) (s : State) : Out :=
  match s.agenda with
  | .run c :: rest => if isSampleStep c then exec .sampleStep { s with agenda := rest } else mainPart p s
  | .inParts c :: rest => if isSampleStep c then .next (startSampleStep { s with agenda := rest }) else mainPart p s
  | .proceed :: rest => mainPart p { s with agenda := rest }
  | [] => mainPart p s

/-! ### Words of the opcode table -/

/-- The machine about to decode a word of the table, where the hardware has it (log 1): a sample word in the register of
face 0, in the middle of a sample step; a special packet as the packet just reported on face 0, in the middle of a
`RECEIVE_STEP` under a carrier that delivers packets. -/
def State.withTableWord (s : State) (nbits w : Nat) : State :=
  if nbits ≤ 8 then
    { s.onRx 0 (fun r => { r with bitstream := BitVec.ofNat 8 w }) with samplerAt := some (.matching 0 0 []) }
  else
    let t := { s with
      config := { s.config with carrier := .uninterpreted }
      samplerAt := none, hold := none, agenda := .proceed :: s.agenda }
    match decodeTableWord nbits w with
    | some (.specialSleep _) => { t with mainAt := some (.treating (.sleep 0) []) }
    | some (.specialWake _) => { t with mainAt := some (.treating (.wake 0) []) }
    | _ => { s with samplerAt := none, hold := none, mainAt := none, agenda := .run (tableCode nbits w) :: s.agenda }

end Sys2Proof.Machine
end

