-- ==== Sys2Proof/Machine/Step.lean ====
section
/-! DEFINITION. One step of the machine (logs 1, 15). A sample step in parts goes on first. While `IR_GET_DATA` holds the
main loop, only the sampler runs; else the operation under way goes on, or the next pending action runs; with nothing
pending the main loop is idle and the sampler's tick comes. A configuration that breaks 00 R7, or whose dropout length
cannot be measured, is refused (log 10). -/

namespace Sys2Proof.Machine

def step (s : State) : Host.Outcome State Fault Refusal :=
  match configRefusal s.config with
  | some r => .refused r
  | none =>
    match s.samplerAt with
    | some p => samplerPart p s
    | none =>
      match s.hold with
      | some f => whileHeld f s
      | none =>
        match s.mainAt with
        | some p => whileUnderWay p s
        | none =>
          match s.fetch with
          | none => exec .sampleStep s
          | some (a, t) => runAction a t

/-- The word of an opcode-table row placed where the next step decodes it (log 1). -/
def State.withFetchWord (s : State) (nbits w : Nat) : State := s.withTableWord nbits w

end Sys2Proof.Machine
end

