-- ==== Sys2Proof/Safety.lean ====
section
/-! DEFINITION. The terms claims use: the invariant of the machine, the answers still to come from a port, the order of a
main-loop iteration, the nominal channel (42 R162) and the carrier's contract (30 R100). The last two are premises that a
claim names; they are laws of nothing in the machine. -/

namespace Sys2Proof.Machine

/-! ### The invariant -/

/-- The mailbox holds 0x00 or a value with its presence flag, never 0x01 to 0x7F (10 R26). -/
def RxFace.mailboxOk (r : RxFace) : Bool := r.lastValue == 0x00 || r.present

/-- Both deadlines are numbers of `TIMER_BITS` bits (10 R38). -/
def FaceChannel.timersOk (cfg : Config) (c : FaceChannel) : Bool :=
  decide (c.expireTimer ≤ neverOf cfg) && decide (c.sendTimer ≤ neverOf cfg)

/-- A transmission stands at a call of one of its frames, and every frame goes to some face (42 R157, R158). -/
def Transmission.ok (x : Transmission) : Bool :=
  decide (x.byte < x.frames.length) && x.frames.all fun fr => fr.mask != 0

/-- The main loop is where an operation can have taken it: a packet with more than a face value, or a special packet, is
treated only under a carrier that delivers such packets (30 R101). -/
def MainPosition.ok (cfg : Config) (p : MainPosition) : Bool :=
  match p with
  | .sending x _ => x.ok
  | .sendStep _ => true
  | .receiveStep _ => true
  | .treating _ _ => cfg.carrier == .uninterpreted

/-- What holds of one face in every state the machine can reach. -/
def State.faceInv (s : State) (f : Face) : Bool :=
  (s.rx.get f).mailboxOk && (s.fc.get f).timersOk s.config &&
    Memory.wf (s.dgIn.get f).bytes && Memory.wf (s.dgOut.get f).bytes

/-- The invariant of the machine. -/
def State.inv (s : State) : Bool := allFaces.all s.faceInv && s.mainAt.all (·.ok s.config)

/-! ### Runs -/

/-- The answer a port gives after `k` others. -/
def Feed.nth {α : Type} (free : Nat → α) (p : Feed α) (k : Nat) : α := (p.queue[k]?).getD (free (p.taken + k))

/-- The port after `n` answers were taken. -/
def Feed.drop {α : Type} (p : Feed α) (n : Nat) : Feed α := ⟨p.queue.drop n, p.taken + n⟩

/-- The `k`-th clock reading to come (43 R172). -/
def State.clockAt (s : State) (k : Nat) : Timer := s.clock.nth Config.freeClock k % 2 ^ s.config.timerBits

/-- No sample step preempts the main loop before any of the next `n` polls of the receive path. -/
def State.quietFor (s : State) (n : Nat) : Prop := ∀ k : Nat, k < n → s.ticks.nth Config.freeTicks k = 0

/-- A configuration that no step refuses (00 R7; log 10). -/
def usable (cfg : Config) : Prop :=
  cfg.probeIntervalMs < cfg.expireWindowMs ∧ 1 ≤ cfg.dropoutZeroSamples ∧ cfg.dropoutZeroSamples ≤ 8

/-- A list of operations, one after the other. -/
def execAll : List Instr → State → Out
  | [], s => .next s
  | i :: is, s =>
    match exec i s with
    | .next t => execAll is t
    | .fault r => .fault r
    | .refused r => .refused r

/-- The frames an uninterpreted carrier sends in its `k`-th `PKT_TX` call to come, for a mask and a packet, having seen
`log` (30 R100; log 8). -/
def State.framesAt (s : State) (k : Nat) (log : List CarrierEvent) (m : Mask) (p : Packet) : List CarrierFrame :=
  let free := Config.freeCarrierTx (s.carrierTx.taken + k) log m p
  match s.carrierTx.queue[k]? with
  | some a => if a.packet = p then a.frames else free
  | none => free

/-- What a carrier sees when the packets of a list of faces are handed to it in order, newest first. -/
def State.handedOver (s : State) (due : List Face) : List CarrierEvent :=
  (due.map fun f => CarrierEvent.handed (1 <<< f.val) (outPacket f s)).reverse

/-- The launch premise a claim may always use (10 R48): no face has received a value, so `inValue` is 0x00 on each. A claim
that errs toward unprovable starts from any such state and names what else of 10 R47 it needs. -/
def State.launch (s : State) : Bool := allFaces.all fun f => (s.fc.get f).inValue == 0x00

/-- No operation is under way, in neither context. -/
def State.ready (s : State) : Bool := s.hold == none && s.mainAt == none && s.samplerAt == none

/-- The main loop is idle: nothing is pending, under way or held. -/
def State.idle (s : State) : Bool := s.agenda == [] && s.ready

/-- One iteration of the main loop: receive step, application, send step (43 R176). -/
def mainLoopIteration (application : List Instr) : List Action :=
  (Instr.receiveStep :: application ++ [Instr.sendStep]).map fun i => .run (encode i)

/-- A safe run: `k` steps that are neither refused nor at fault. -/
def runsClean (k : Nat) (s : State) : Prop := ∃ t : State, Host.Core.run core k s = .next t

/-! ### Who may touch what (60 R242) -/

/-- The operations of the interrupt-like context. -/
def samplerOp : Instr → Bool
  | .symZero _ => true
  | .symOneAdj _ => true
  | .symOneSkew _ => true
  | .symSync _ => true
  | .rxDropout _ => true
  | .rxNoise1011 _ => true
  | .rxNoise1101 _ => true
  | .rxNoise10101 _ => true
  | .rxNone _ => true
  | .sampleStep => true
  | _ => false

/-- The operations that transmit. -/
def transmitOp : Instr → Bool
  | .txsSync _ => true
  | .txsZero _ => true
  | .txsOne _ => true
  | .txByte _ _ => true
  | .txPacket _ _ => true
  | .sendStep => true
  | _ => false

/-- The operation an entry of the agenda begins. -/
def Action.operation : Action → Option Instr
  | .run c => (decode c).toOption
  | .inParts c => (decode c).toOption
  | .proceed => none

/-- What the main loop is about to go on with or to begin: its position, or the operation of the next entry. -/
def State.mainDoes (s : State) (p : MainPosition → Bool) (i : Instr → Bool) : Bool :=
  s.samplerAt == none && s.hold == none &&
    match s.mainAt with
    | some q => p q
    | none => (s.agenda.head?.bind Action.operation).any i

/-- The main loop is about to do something that may call `Pulse` or `Idle`: `TX_BYTE`, or what calls it. -/
def State.transmits (s : State) : Bool :=
  s.mainDoes
    (fun q => match q with | .sending _ _ => true | .sendStep _ => true | .receiveStep _ => false | .treating _ _ => false)
    (fun i => match i with | .txByte _ _ => true | .txPacket _ _ => true | .sendStep => true | _ => false)

/-- The main loop is in a `RECEIVE_STEP` or about to begin one. -/
def State.receives (s : State) : Bool :=
  s.mainDoes
    (fun q => match q with | .receiveStep _ => true | .treating _ _ => true | .sending _ _ => false | .sendStep _ => false)
    (fun i => i == .receiveStep)

/-- The face operand of an operation that has one. -/
def faceOperand : Instr → Option Nat
  | .symZero f => some f
  | .symOneAdj f => some f
  | .symOneSkew f => some f
  | .symSync f => some f
  | .rxDropout f => some f
  | .rxNoise1011 f => some f
  | .rxNoise1101 f => some f
  | .rxNoise10101 f => some f
  | .rxNone f => some f
  | .irPoll f => some f
  | .irGetData f => some f
  | .irReadErrors f => some f
  | .setOutgoingValue f _ => some f
  | .getIncomingValue f => some f
  | .didValueChange f => some f
  | .isExpired f => some f
  | .sendDatagram f _ => some f
  | .isDatagramPending f => some f
  | .isDatagramReady f => some f
  | .datagramLength f => some f
  | .getDatagram f => some f
  | .consumeDatagram f => some f
  | .setPostponeSleep f _ => some f
  | .header f _ _ => some f
  | .specialSleep f => some f
  | .specialWake f => some f
  | .txsSync _ => none
  | .txsZero _ => none
  | .txsOne _ => none
  | .txByte _ _ => none
  | .txPacket _ _ => none
  | .sampleStep => none
  | .receiveStep => none
  | .sendStep => none
  | .setOutgoingValueAll _ => none
  | .isAlone => none
  | .enterSleep => none
  | .notifyActivity => none

/-- The number of flashes in a transmission (42 R155). -/
def flashes (es : List TxEvent) : Nat :=
  (es.map fun e => match e with | .pulse _ n _ => n | .idle _ => 0).sum

/-! ### The nominal channel (42 R162) -/

/-- The samples a coupled receiver may see for one sent element. -/
def eventImages (e : TxEvent) : List (List Bool) :=
  match e with
  | .pulse _ 4 _ => [[true, true, true], [true, true, true, true]]
  | .pulse _ 1 _ => [[true]]
  | .pulse _ 2 _ => [[true, true], [true, false, true]]
  | .pulse _ _ _ => []
  | .idle _ => (List.range 6).map fun k => List.replicate (k + 2) false

/-- The image of a transmission is the concatenation of the images of its elements, chosen freely. -/
def IsImage : List TxEvent → List Bool → Prop
  | [], w => w = []
  | e :: es, w => ∃ a b, a ∈ eventImages e ∧ w = a ++ b ∧ IsImage es b

/-- No transmission: any number of 0s (42 R162, last row). -/
def IsSilence (w : List Bool) : Prop := ∀ b ∈ w, b = false

/-- The samples a coupled receiver may see of a list of transmissions: silence, the image of the first, and so on, and
silence at the end. -/
def IsLinkImage : List (List TxEvent) → List Bool → Prop
  | [], w => IsSilence w
  | es :: rest, w => ∃ a b c, IsSilence a ∧ IsImage es b ∧ IsLinkImage rest c ∧ w = a ++ b ++ c

/-- A frame with its `k`-th bit symbol (0 to 7) sent as the other bit value (42 R163 (b)). -/
def corruptedTrace (cfg : Config) (m : Mask) (v : Phy) (k : Nat) : List TxEvent :=
  syncGroup cfg m ++ ((frameBits v).modify k (fun b => !b)).flatMap (bitGroup cfg m)

/-! ### The carrier's contract (30 R100) -/

/-- The 7-bit values of a list of frames that go out on face `f`. -/
def valuesOn (f : Face) (frs : List Frame) : List Phy :=
  (frs.filter fun fr => fr.mask.getLsbD f.val).map Frame.value

/-- The values a carrier's polls of face `f` found, in order, in a log (newest first). -/
def polledOn (f : Face) (log : List CarrierEvent) : List Phy :=
  log.reverse.filterMap fun e =>
    match e with
    | .polled g r => if g = f then r else none
    | .handed _ _ => none

/-- The values the polls of one `PKT_RX(g)` call at `s` find, in order (30 R100, R101). -/
def foundBy (g : Face) (s : State) : List Phy :=
  match s.config.carrier with
  | .faceOnly => ((preempt s).rx.get g).pollValue.toList
  | .uninterpreted =>
    let log := (packetRx g s).state.carrierLog
    polledOn g (log.take (log.length - s.carrierLog.length))

/-- What a tile does next, as far as its carrier has a part in it. -/
inductive CarrierMove where
  /-- `PKT_TX(m, p)`, for which the carrier sends these frames. -/
  | handOver (m : Mask) (p : Packet) (frames : List Frame)
  /-- `PKT_RX(g)`, in which the polls find these values and this is reported. -/
  | receive (g : Face) (found : List Phy) (packet : Option Packet)
  /-- Anything in which the carrier has no part. -/
  | other
deriving DecidableEq, Repr

/-- The values a move sends on face `f`. -/
def CarrierMove.sentOn (f : Face) : CarrierMove → List Phy
  | .handOver _ _ frames => valuesOn f frames
  | .receive _ _ _ => []
  | .other => []

/-- The packet a move hands over for face `f`. -/
def CarrierMove.handedOn (f : Face) : CarrierMove → List Packet
  | .handOver m p _ => if m.getLsbD f.val then [p] else []
  | .receive _ _ _ => []
  | .other => []

/-- The values a move finds on face `g`. -/
def CarrierMove.foundOn (g : Face) : CarrierMove → List Phy
  | .handOver _ _ _ => []
  | .receive h found _ => if h = g then found else []
  | .other => []

/-- The packet a move reports on face `g`. -/
def CarrierMove.reportedOn (g : Face) : CarrierMove → List Packet
  | .handOver _ _ _ => []
  | .receive h _ packet => if h = g then packet.toList else []
  | .other => []

/-- Is a move a call `PKT_RX(g)`? -/
def CarrierMove.callsOn (g : Face) : CarrierMove → Bool
  | .handOver _ _ _ => false
  | .receive h _ _ => h == g
  | .other => false

/-- What the carrier's doings depend on is the same in two states: its kind and parameters, its own state, and its choices to
come. Everything else, the mailboxes among it, may differ. -/
def sameCarrier (s t : State) : Prop :=
  t.config = s.config ∧ t.carrierLog = s.carrierLog ∧ t.carrierRx = s.carrierRx ∧ t.carrierTx = s.carrierTx

/-- The move `x` of a tile, from `s` to `t`; a packet has at most 18 bytes. -/
def carrierMoves (x : CarrierMove) (s t : State) : Prop :=
  match x with
  | .handOver m p frames =>
    m ≠ 0 ∧ p.bytes.length ≤ Config.packetCapacity ∧ ∃ u : State, packetFrames m p s = .ok (frames, u) ∧ sameCarrier u t
  | .receive g found packet =>
    found = foundBy g s ∧ packet = (packetRx g s).packet ∧ sameCarrier (packetRx g s).state t
  | .other => sameCarrier s t

/-- An endless run of a tile from `s`, as far as its carrier has a part in it. -/
def CarrierRun (s : State) (states : Nat → State) (moves : Nat → CarrierMove) : Prop :=
  states 0 = s ∧ ∀ n : Nat, carrierMoves (moves n) (states n) (states (n + 1))

/-- What the first `n` moves of a run amount to. -/
def firstMoves {α : Type} (part : CarrierMove → List α) (moves : Nat → CarrierMove) (n : Nat) : List α :=
  (List.range n).flatMap fun k => part (moves k)

/-- Two growing lists come to the same, element for element: each gets to where the other was. -/
def SameInTheEnd {α : Type} (x y : Nat → List α) : Prop :=
  (∀ n : Nat, ∃ m : Nat, x n <+: y m) ∧ ∀ m : Nat, ∃ n : Nat, y m <+: x n

/-- The values that have come into the mailbox of face `g` in the first `n` moves: those the carrier's polls found, and the
one still there. -/
def arrived (g : Face) (states : Nat → State) (moves : Nat → CarrierMove) (n : Nat) : List Phy :=
  firstMoves (·.foundOn g) moves n ++ ((states n).rx.get g).pollValue.toList

/-- No frame is corrupted or lost on the way to face `g`, and no overflow occurs (30 R100). This says when frames come into
the mailbox and nothing of what the carrier reads: while it leaves a value there, the next frame does not come. -/
structure CleanLink (g : Face) (sent : Nat → List Phy) (states : Nat → State) (moves : Nat → CarrierMove) : Prop where
  /-- What comes is what was sent, in order. -/
  uncorrupted : ∀ n : Nat, ∃ m : Nat, arrived g states moves n <+: sent m
  /-- A value stays until a poll of the carrier takes it: it is not overwritten and nobody else reads it. -/
  noOverflow : ∀ n : Nat, arrived g states moves n <+: arrived g states moves (n + 1)
  /-- While the mailbox is empty and not all has come, more comes. -/
  noLoss : ∀ n m : Nat, ((states n).rx.get g).present = false → (arrived g states moves n).length < (sent m).length →
    ∃ k : Nat, (arrived g states moves n).length < (arrived g states moves k).length

/-- The contract a carrier must satisfy (30 R100), of the machine's own carrier, for a link that starts at tile A in state `a`
and at tile B in state `b`: for every two runs, if no frame from face `f` of A to face `g` of B is corrupted or lost, no
overflow occurs there, and B calls `PKT_RX(g)` again and again, then the packets reported at B are those handed over at A, in
order, each once. It asks nothing of the carrier beforehand: one that leaves a value in the mailbox for ever breaks it as one
that withholds a packet does. It holds whatever else the tiles do meanwhile, nothing included, so a carrier may wait for
further calls and frames and for nothing else. That sending may depend on the carrier's own state is the model's choice, as
in `packetFrames`. A premise that a claim names, no law (log 8). -/
def CarrierContract (a b : State) : Prop :=
  ∀ (f g : Face) (sa sb : Nat → State) (ma mb : Nat → CarrierMove),
    CarrierRun a sa ma → CarrierRun b sb mb →
    CleanLink g (firstMoves (·.sentOn f) ma) sb mb →
    (∀ n : Nat, ∃ k : Nat, n ≤ k ∧ (mb k).callsOn g = true) →
    SameInTheEnd (firstMoves (·.reportedOn g) mb) (firstMoves (·.handedOn f) ma)

end Sys2Proof.Machine
end

