-- ==== Sys2Proof/Certificates/Slice0/Obligations.lean ====
section
/-! DEFINITION. The statements for the provers. A statement that says what an operation does gives its whole next state:
every field it does not name is unchanged. -/

open Sys2Proof Sys2Proof.Machine

/-! ### Reset -/

/-- 10 R47, R48, 70 R261: every register after reset, in any configuration. All but `inValue` are the spec's choice (92 D24,
D30, D32). That the configuration stands in State is the model's choice (log 9); its defaults are those of 00 R6 (92 D6, D21,
D23, with the hedges removed), the gap, the stagger and the carrier are left open (logs 8, 9). -/
def Obligations.ResetLeavesTheSpecsValues : Prop :=
  State.reset = State.resetWith Config.default ∧
  Config.default.tWindowUs = 512 ∧ Config.default.tBitGapUs = 600 ∧ Config.default.tSyncGapUs = 400 ∧
  Config.default.dropoutZeroSamples = 8 ∧ Config.default.probeIntervalMs = 150 ∧ Config.default.expireWindowMs = 200 ∧
  Config.default.timerBits = 32 ∧ neverOf Config.default = 0xFFFFFFFF ∧ Config.default.carrier = .uninterpreted ∧
  ∀ (cfg : Config) (f : Face),
    (State.resetWith cfg).config = cfg ∧
    (State.resetWith cfg).rx.get f = ⟨0x00, 0x00, 0x00, 0b0000⟩ ∧
    ((State.resetWith cfg).fc.get f).inValue = 0x00 ∧
    ((State.resetWith cfg).fc.get f).expireTimer = 0 ∧
    ((State.resetWith cfg).fc.get f).outValue = 0x00 ∧
    ((State.resetWith cfg).fc.get f).sendTimer = cfg.sendStaggerMs.get f ∧
    ((State.resetWith cfg).fc.get f).header.toByte = 0b10000000 ∧
    ((State.resetWith cfg).fc.get f).shadow = 0x00 ∧
    ((State.resetWith cfg).dgIn.get f).len = 0 ∧
    ((State.resetWith cfg).dgOut.get f).len = 0 ∧
    (State.resetWith cfg).launch = true

/-- 10 R26, R36, R38: the machine starts inside its invariant (canonical form: log 11; timers as numbers: log 12). -/
def Obligations.ResetSatisfiesTheInvariant : Prop := State.reset.inv = true

/-- 10 R26 (mailbox values), R36 (16-byte buffers, canonical form of log 11), R38 (timers of `TIMER_BITS` bits,
log 12): every step from every state that meets the invariant keeps it. -/
def Obligations.StepKeepsTheInvariant : Prop :=
  ∀ s t : State, s.inv = true → step s = .next t → t.inv = true

/-- 10 R46: the parameters are not state of the hardware, so no step writes them; that State carries them is the model's
(log 9). -/
def Obligations.StepKeepsTheConfiguration : Prop :=
  ∀ s t : State, step s = .next t → t.config = s.config

/-! ### Decoding and the step -/

/-- 30 R81, R85 to R87, R94, R98, R102: decoding the code of a well-formed instruction gives it back, with every operand.
How operands without bits are laid out is the model's choice (log 2). -/
def Obligations.DecodeOfEncodeIsIdentity : Prop :=
  ∀ i : Instr, i.wellFormed = true → decode (encode i) = .ok i

/-- Words written out from the spec's encodings (30 R81, R85, R86, R94, R98) decode to the instructions they stand for; and
what stands for none is rejected: a number of flashes other than 1, 2 and 4, an even number of 1s in a frame, a mask above
the six faces, two bytes that are no special packet, a bit above 1, a wrong number of operand bytes. The byte layout of
operands and the rejections of it are the model's (log 2); sync mask, dropout and header layout are 92 D3, D6, D26. -/
def Obligations.SpecWordsDecode : Prop :=
  decode ⟨.samplePattern, [0b11100100, 3]⟩ = .ok (.symZero 3) ∧
  decode ⟨.samplePattern, [0b10001100, 0]⟩ = .ok (.symOneAdj 0) ∧
  decode ⟨.samplePattern, [0b10010100, 1]⟩ = .ok (.symOneSkew 1) ∧
  decode ⟨.samplePattern, [0b01000111, 5]⟩ = .ok (.symSync 5) ∧
  decode ⟨.samplePattern, [0b00000000, 2]⟩ = .ok (.rxDropout 2) ∧
  decode ⟨.samplePattern, [0b00011101, 4]⟩ = .ok (.rxNoise1101 4) ∧
  decode ⟨.samplePattern, [0b00111001, 4]⟩ = .ok (.rxNone 4) ∧
  decode ⟨.pulseGroup, [4, 0b000100]⟩ = .ok (.txsSync 0b000100) ∧
  decode ⟨.frame, [0b00001011, 0b000001]⟩ = .ok (.txByte 0b000001 0x05) ∧
  decode ⟨.headerByte, [0b10100010, 1, 0x41]⟩ = .ok (.header 1 0b10100010 [0x41]) ∧
  decode ⟨.packet, [0b00010101, 0b00010101, 2]⟩ = .ok (.specialSleep 2) ∧
  decode ⟨.packet, [0b00110011, 0b00110011, 2]⟩ = .ok (.specialWake 2) ∧
  (∀ c m : Byte, m.toNat < 64 → c ≠ 1 → c ≠ 2 → c ≠ 4 → decode ⟨.pulseGroup, [c, m]⟩ = .error (.pulseCount c)) ∧
  (∀ b m : Byte, m.toNat < 64 → (popcount (b.extractLsb' 1 7) + (b.getLsbD 0).toNat) % 2 = 0 →
    decode ⟨.frame, [b, m]⟩ = .error (.evenParity b)) ∧
  (∀ (b m : Byte) (bytes : List Byte), 64 ≤ m.toNat →
    decode ⟨.pulseGroup, [b, m]⟩ = .error (.maskTooWide m) ∧ decode ⟨.frame, [b, m]⟩ = .error (.maskTooWide m) ∧
    decode ⟨.call .txPacket, m :: bytes⟩ = .error (.maskTooWide m)) ∧
  (∀ a b f : Byte, ¬(a = b ∧ (a = 0x15 ∨ a = 0x33)) → decode ⟨.packet, [a, b, f]⟩ = .error (.notSpecial a b)) ∧
  (∀ f v : Byte, v ≠ 0 → v ≠ 1 → decode ⟨.call .setPostponeSleep, [f, v]⟩ = .error (.notABit v)) ∧
  (∀ (space : Space) (count : Nat), (space, count) ∈
      [(Space.samplePattern, 2), (.pulseGroup, 2), (.frame, 2), (.packet, 3), (.call .sampleStep, 0), (.call .irPoll, 1),
        (.call .irGetData, 1), (.call .irReadErrors, 1), (.call .receiveStep, 0), (.call .sendStep, 0),
        (.call .setOutgoingValue, 2), (.call .setOutgoingValueAll, 1), (.call .getIncomingValue, 1),
        (.call .didValueChange, 1), (.call .isExpired, 1), (.call .isAlone, 0), (.call .isDatagramPending, 1),
        (.call .isDatagramReady, 1), (.call .datagramLength, 1), (.call .getDatagram, 1), (.call .consumeDatagram, 1),
        (.call .setPostponeSleep, 2), (.call .enterSleep, 0), (.call .notifyActivity, 0)] →
    ∀ bytes : List Byte, bytes.length ≠ count → decode ⟨space, bytes⟩ = .error (.operandCount bytes.length)) ∧
  (∀ bytes : List Byte, bytes.length < 2 → decode ⟨.headerByte, bytes⟩ = .error (.operandCount bytes.length)) ∧
  decode ⟨.call .txPacket, []⟩ = .error (.operandCount 0) ∧ decode ⟨.call .sendDatagram, []⟩ = .error (.operandCount 0)

/-- 20 R71: under a configuration no step refuses (00 R7; log 10), with no operation under way and the next pending action
decoding to an operation, a step is that instruction at that state, the action taken off the agenda (log 1). The rows that
are parts of an operation run where the hardware has them (10 R21, 60 R242; logs 3, 4): the outcome of the pattern match is
what the register of a face decodes to in the middle of a sample step, a header or special packet what a `RECEIVE_STEP` has
yet to treat. `withFetchWord` puts a word of the table at these places (log 1). -/
def Obligations.StepRunsTheDecodedAction : Prop :=
  (∀ (s : State) (c : Code) (rest : List Action) (i : Instr),
    usable s.config → s.ready = true → s.agenda = .run c :: rest → decode c = .ok i → partOnly i = false →
    step s = exec i { s with agenda := rest }) ∧
  (∀ (s : State) (sample : Mask) (f : Face) (fs : List Face),
    usable s.config → s.samplerAt = some (.matching sample f fs) →
    let B := (s.rx.get f).bitstream
    let i : Instr :=
      if B &&& 0x1F = 0x04 then .symZero f.val
      else if B &&& 0x3F = 0x0C then .symOneAdj f.val
      else if B &&& 0x7F = 0x14 then .symOneSkew f.val
      else if B &&& 0x07 = 0x07 then .symSync f.val
      else if B &&& BitVec.ofNat 8 (2 ^ s.config.dropoutZeroSamples - 1) = 0x00 then .rxDropout f.val
      else if B &&& 0x0F = 0x0B then .rxNoise1011 f.val
      else if B &&& 0x0F = 0x0D then .rxNoise1101 f.val
      else if B &&& 0x1F = 0x15 then .rxNoise10101 f.val
      else .rxNone f.val
    step s = exec i { s with samplerAt := if fs = [] then none else some (.shifting sample fs) }) ∧
  (∀ (s : State) (r : ReceivePart) (fs : List Face),
    usable s.config → s.samplerAt = none → s.hold = none → s.mainAt = some (.treating r fs) → s.agenda = [] →
    let i := match r with
      | .header f h payload => Instr.header f.val h payload
      | .sleep f => .specialSleep f.val
      | .wake f => .specialWake f.val
    step s = exec i { s with mainAt := if fs = [] then none else some (.receiveStep fs) }) ∧
  (∀ (s : State) (nbits w : Nat) (i : Instr),
    usable s.config → s.config.dropoutZeroSamples = 8 → nbits ≤ 8 → decodeTableWord nbits w = some i →
    step (s.withFetchWord nbits w) =
      exec i { s with rx := s.rx.set 0 { s.rx.get 0 with bitstream := BitVec.ofNat 8 w }, samplerAt := none }) ∧
  (∀ (s : State) (nbits w : Nat) (i : Instr),
    usable s.config → 8 < nbits → decodeTableWord nbits w = some i →
    step (s.withFetchWord nbits w) =
      exec i { s with
        config := { s.config with carrier := .uninterpreted }, samplerAt := none, hold := none, mainAt := none })

/-- What a step does otherwise. A configuration that breaks 00 R7, or whose dropout length the shift register cannot measure
(log 10), is refused; a code that decodes to nothing is refused (log 2), and a row that is a part of another operation, put
on the agenda as an operation (10 R21, 60 R242; logs 3, 4, 24). With nothing pending the sampler's tick comes (log 1). A
transmission under way makes its next call, the `Pulse` or the `Idle` of a symbol of a frame of the packet (42 R158), and a
sample step may fall before it (00 R17), while the main loop's other operations wait (42 R160). A sample step in parts
shifts a face before the outcome of that face, and nothing else comes between (40 R112, 20 R69). The parts are the model's
form (log 1). -/
def Obligations.StepWithoutADecodedAction : Prop :=
  (∀ s : State, s.config.expireWindowMs ≤ s.config.probeIntervalMs → step s = .refused .probeNotBelowExpiry) ∧
  (∀ s : State, s.config.probeIntervalMs < s.config.expireWindowMs →
    s.config.dropoutZeroSamples = 0 ∨ 8 < s.config.dropoutZeroSamples →
    step s = .refused (.dropoutNotMeasurable s.config.dropoutZeroSamples)) ∧
  (∀ (s : State) (c : Code) (a : Action) (rest : List Action), usable s.config → s.ready = true →
    s.agenda = a :: rest → a = .run c ∨ a = .inParts c →
    (∀ e : Reject, decode c = .error e → step s = .refused (.undecodable e)) ∧
    (∀ i : Instr, decode c = .ok i →
      (samplerOp i = true ∧ i ≠ .sampleStep) ∨ (∃ m : Mask, i = .txsSync m ∨ i = .txsZero m ∨ i = .txsOne m) ∨
        (∃ f h payload, i = .header f h payload) ∨ (∃ f : Nat, i = .specialSleep f ∨ i = .specialWake f) →
      step s = .refused (.partOfAnother i))) ∧
  (∀ s : State, usable s.config → s.ready = true → s.agenda = [] → step s = exec .sampleStep s) ∧
  (∀ (s : State) (p : MainPosition) (rest : List Action), usable s.config → s.samplerAt = none → s.hold = none →
    s.mainAt = some p →
    (s.agenda = .run (encode .sampleStep) :: rest → step s = exec .sampleStep { s with agenda := rest }) ∧
    (∀ (a : Action) (t : State), s.agenda = a :: rest → step { s with agenda := [] } = .next t →
      (a = .proceed → step s = .next { t with agenda := rest }) ∧
      (a ≠ .proceed → (∀ c : Code, a = .run c ∨ a = .inParts c → decode c ≠ .ok .sampleStep) →
        step s = .next { t with agenda := s.agenda }))) ∧
  (∀ (s : State) (x : Transmission) (after : Option SendRest) (fr : Frame),
    usable s.config → s.samplerAt = none → s.hold = none → s.agenda = [] →
    s.mainAt = some (.sending x after) → x.frames[x.byte]? = some fr →
    let v := fr.value
    let bits := [v[6], v[5], v[4], v[3], v[2], v[1], v[0], true ^^ v[6] ^^ v[5] ^^ v[4] ^^ v[3] ^^ v[2] ^^ v[1] ^^ v[0]]
    let call : TxEvent :=
      if x.idle then .idle s.config.tSymbolGapUs
      else if x.symbol.val = 0 then .pulse fr.mask 4 s.config.tSyncGapUs
      else .pulse fr.mask (if bits.getD (x.symbol.val - 1) false then 2 else 1) s.config.tBitGapUs
    let u := { s with txTrace := s.txTrace ++ [call] }
    let last := x.idle = true ∧ x.symbol = 8 ∧ x.frames.length ≤ x.byte + 1
    (¬last →
      step s = .next { u with
        mainAt := some (.sending
          (if x.idle = false then { x with idle := true }
           else if x.symbol.val < 8 then { x with symbol := x.symbol + 1, idle := false }
           else { x with byte := x.byte + 1, symbol := 0, idle := false }) after) }) ∧
    (last → after = none → step s = .next { u with mainAt := none })) ∧
  (∀ (s : State) (sample : Mask) (f : Face) (fs : List Face), usable s.config →
    s.samplerAt = some (.shifting sample (f :: fs)) →
    step s = .next { s with
      samplerAt := some (.matching sample f fs)
      rx := s.rx.set f { s.rx.get f with
        bitstream := (s.rx.get f).bitstream <<< 1 ||| (if sample.getLsbD f.val then 1 else 0) } })

/-! ### The pulse-symbol decoder -/

/-- 30 R81, 40 R122: the class of every value of the shift register, and how many values each class has with the default
dropout length. The sync mask, the dropout and the noise patterns are the spec's decisions (92 D3, D6, D7); for a dropout
length below 8 the model tests that many of the newest windows (log 10). -/
def Obligations.SampleWordsAreClassified : Prop :=
  (∀ (n : Nat) (b : Byte), 1 ≤ n → n ≤ 8 →
    let symbol := b &&& 0x1F = 0x04 ∨ b &&& 0x3F = 0x0C ∨ b &&& 0x7F = 0x14 ∨ b &&& 0x07 = 0x07
    (classify n b = .zero ↔ b &&& 0x1F = 0x04) ∧
    (classify n b = .oneAdj ↔ b &&& 0x3F = 0x0C) ∧
    (classify n b = .oneSkew ↔ b &&& 0x7F = 0x14) ∧
    (classify n b = .sync ↔ b &&& 0x07 = 0x07) ∧
    (classify n b = .dropout ↔ ¬symbol ∧ ∀ k : Nat, k < n → b.getLsbD k = false) ∧
    (classify n b = .noise1011 ↔ b &&& 0x0F = 0x0B) ∧
    (classify n b = .noise1101 ↔ b &&& 0x0F = 0x0D) ∧
    (classify n b = .noise10101 ↔ b &&& 0x1F = 0x15)) ∧
  (∀ b : Byte, classify 8 b = .dropout ↔ b = 0x00) ∧
  (let count := fun c => ((List.range 256).filter fun n => classify 8 (BitVec.ofNat 8 n) == c).length
   count .zero = 8 ∧ count .oneAdj = 4 ∧ count .oneSkew = 2 ∧ count .sync = 32 ∧ count .dropout = 1 ∧
   count .noise1011 + count .noise1101 + count .noise10101 = 40 ∧ count .nothing = 169)

/-- 40 R111 to R113: a sample step takes one answer of `Sample()`, shifts bit `f` of it into the register of every face,
and does on each face what the operation selected by the value after the shift does (92 D4; that an outcome is an operation
of its own is log 3, the answers of the port log 5, a dropout length other than 8 log 10). Run in parts, a shift and an
outcome for each face, it comes to the same state (logs 1, 3). -/
def Obligations.SampleStepShiftsAndActsOnEveryFace : Prop :=
  ∀ s : State, (usable s.config → s.ready = true →
      Host.Core.run core 13 { s with agenda := .inParts (encode .sampleStep) :: s.agenda } = exec .sampleStep s) ∧
    ∃ t : State,
    exec .sampleStep s = .next t ∧
    t = { s with samples := s.samples.drop 1, rx := t.rx } ∧
    ∀ f : Face,
      let b := (s.samples.nth Config.freeSample 0).getLsbD f.val
      let B : Byte := (s.rx.get f).bitstream <<< 1 ||| (if b then 1 else 0)
      let i : Instr :=
        if B &&& 0x1F = 0x04 then .symZero f.val
        else if B &&& 0x3F = 0x0C then .symOneAdj f.val
        else if B &&& 0x7F = 0x14 then .symOneSkew f.val
        else if B &&& 0x07 = 0x07 then .symSync f.val
        else if B &&& BitVec.ofNat 8 (2 ^ s.config.dropoutZeroSamples - 1) = 0x00 then .rxDropout f.val
        else if B &&& 0x0F = 0x0B then .rxNoise1011 f.val
        else if B &&& 0x0F = 0x0D then .rxNoise1101 f.val
        else if B &&& 0x1F = 0x15 then .rxNoise10101 f.val
        else .rxNone f.val
      ∃ u : State,
        exec i { s with rx := s.rx.set f { s.rx.get f with bitstream := B } } = .next u ∧
        t.rx.get f = u.rx.get f ∧ (t.rx.get f).bitstream = B

/-- 40 R118: a sync resets `inputBuffer` to the sentinel, whatever it was, and changes nothing else (in the middle of a frame
that is the spec's decision, 92 D12; the outcome as an operation is log 3). -/
def Obligations.SyncRestartsTheFrame : Prop :=
  ∀ (f : Face) (s : State),
    exec (.symSync f.val) s =
      .next { s with rx := s.rx.set f { s.rx.get f with inputBuffer := 0b00000001 } }

/-- 40 R120, R121: while a frame is in progress a dropout value or a noise value sets its error bit and returns the face to
searching; nothing else changes. Which values these are is the spec's decision (92 D6, D7); the outcome as an operation is
log 3. -/
def Obligations.DropoutAndNoiseAbortTheFrame : Prop :=
  ∀ (f : Face) (s : State), (s.rx.get f).inputBuffer ≠ 0x00 →
    exec (.rxDropout f.val) s =
      .next { s with
        rx := s.rx.set f
          { s.rx.get f with errorBits := (s.rx.get f).errorBits ||| 0b0100, inputBuffer := 0x00 } } ∧
    ∀ i ∈ [Instr.rxNoise1011 f.val, Instr.rxNoise1101 f.val, Instr.rxNoise10101 f.val],
      exec i s =
        .next { s with
          rx := s.rx.set f
            { s.rx.get f with errorBits := (s.rx.get f).errorBits ||| 0b1000, inputBuffer := 0x00 } }

/-- 40 R119, R122: to a searching face a dropout value and a noise value are nothing, and a value that matches no pattern is
nothing to any face (92 D6, D7; log 3). -/
def Obligations.NoSymbolChangesNothing : Prop :=
  ∀ (f : Face) (s : State),
    exec (.rxNone f.val) s = .next s ∧
    ((s.rx.get f).inputBuffer = 0x00 →
      ∀ i ∈ [Instr.rxDropout f.val, Instr.rxNoise1011 f.val, Instr.rxNoise1101 f.val, Instr.rxNoise10101 f.val],
        exec i s = .next s)

/-! ### The reassembler -/

/-- 41 R131: a bit symbol while searching is ignored (the spec's decision, 92 D11). -/
def Obligations.BitSymbolWhileSearchingIsIgnored : Prop :=
  ∀ (f : Face) (s : State), (s.rx.get f).inputBuffer = 0x00 →
    ∀ i ∈ [Instr.symZero f.val, Instr.symOneAdj f.val, Instr.symOneSkew f.val], exec i s = .next s

/-- 41 R132, 40 R115 to R117: a data bit is shifted into the low end of `inputBuffer`, 0 by the 0-bit symbol and 1 by both
1-bit symbols; nothing else changes. That the bit symbols are operations of their own, without the shift of the sample, is
the model's choice (log 3). -/
def Obligations.BitSymbolShiftsInADataBit : Prop :=
  ∀ (f : Face) (s : State), (s.rx.get f).inputBuffer ≠ 0x00 → (s.rx.get f).inputBuffer.getLsbD 7 = false →
    ∀ p ∈ [(Instr.symZero f.val, (0 : Byte)), (Instr.symOneAdj f.val, 1), (Instr.symOneSkew f.val, 1)],
      exec p.1 s =
        .next { s with
          rx := s.rx.set f
            { s.rx.get f with inputBuffer := ((s.rx.get f).inputBuffer <<< 1) ||| p.2 } }

/-- 41 R130, R133, R134: when the eighth bit symbol makes the eight bits hold an odd number of 1s, the face returns to
searching and `0x80 | v` is in the mailbox; overflow is set exactly when the old value was still there. That odd parity
means this is the spec's passage from general knowledge (30 R87, 93 G1; log 21); that the eighth bit is not stored is 92 D5,
the order of the tests 92 D47; that the bit symbols are operations of their own, without the shift of the sample, is the
model's choice (log 3). -/
def Obligations.GoodParityDeliversTheValue : Prop :=
  ∀ (f : Face) (s : State), (s.rx.get f).inputBuffer.getLsbD 7 = true →
    ∀ p ∈ [(Instr.symZero f.val, 0), (Instr.symOneAdj f.val, 1), (Instr.symOneSkew f.val, 1)],
      (popcount ((s.rx.get f).inputBuffer.setWidth 7) + p.2) % 2 = 1 →
      exec p.1 s =
        .next { s with
          rx := s.rx.set f
            { s.rx.get f with
              inputBuffer := 0x00
              lastValue := 0x80 ||| (s.rx.get f).inputBuffer
              errorBits :=
                if (s.rx.get f).lastValue.getLsbD 7 then (s.rx.get f).errorBits ||| 0b0001
                else (s.rx.get f).errorBits } }

/-- 41 R135: when the eight bits hold an even number of 1s the parity flag is set, the face returns to searching and the
mailbox keeps what it had. (General knowledge of odd parity: 30 R87, 93 G1, log 21; the eighth bit: 92 D5.) That the bit
symbols are operations of their own, without the shift of the sample, is the model's choice (log 3). -/
def Obligations.BadParityDiscardsTheFrame : Prop :=
  ∀ (f : Face) (s : State), (s.rx.get f).inputBuffer.getLsbD 7 = true →
    ∀ p ∈ [(Instr.symZero f.val, 0), (Instr.symOneAdj f.val, 1), (Instr.symOneSkew f.val, 1)],
      (popcount ((s.rx.get f).inputBuffer.setWidth 7) + p.2) % 2 = 0 →
      exec p.1 s =
        .next { s with
          rx := s.rx.set f
            { s.rx.get f with
              inputBuffer := 0x00
              errorBits := (s.rx.get f).errorBits ||| 0b0010 } }

/-- 41 R136: a sample step sets at most one error bit of a face, and clears none (a consequence the spec draws
itself). -/
def Obligations.SampleStepRaisesAtMostOneError : Prop :=
  ∀ (s t : State) (f : Face), exec .sampleStep s = .next t →
    (t.rx.get f).errorBits = (s.rx.get f).errorBits ∨
    ∃ flag ∈ [(0b0001 : BitVec 4), 0b0010, 0b0100, 0b1000],
      (t.rx.get f).errorBits = (s.rx.get f).errorBits ||| flag

/-- 10 R25: only a sync takes a face out of searching, and it leaves the sentinel there: among single operations it is
`SYM_SYNC` (log 3), and in a sample step it is a face whose three newest samples are 1. A `RECEIVE_STEP` does it only by a
sample step that falls inside it: what it leaves in the receive registers, and the samples it takes, are those of sample
steps and polls, that sample step, and sample steps and polls again (log 7). -/
def Obligations.OnlyASyncLeavesSearching : Prop :=
  ∀ (i : Instr) (s t : State) (f : Face), exec i s = .next t →
    (s.rx.get f).inputBuffer = 0x00 → (t.rx.get f).inputBuffer ≠ 0x00 →
    (i ≠ .receiveStep →
      (t.rx.get f).inputBuffer = 0x01 ∧
      (i = .symSync f.val ∨ (i = .sampleStep ∧ (t.rx.get f).bitstream &&& 0x07 = 0x07))) ∧
    (i = .receiveStep →
      ∃ (is : List Instr) (u v : State), (∀ j ∈ is, j = .sampleStep ∨ ∃ g : Face, j = .irPoll g.val) ∧
        execAll is s = .next u ∧ exec .sampleStep u = .next v ∧
        (∃ (is2 : List Instr) (w : State), (∀ j ∈ is2, j = .sampleStep ∨ ∃ g : Face, j = .irPoll g.val) ∧
          execAll is2 v = .next w ∧ t.rx = w.rx ∧ t.samples = w.samples) ∧
        (u.rx.get f).inputBuffer = 0x00 ∧ (v.rx.get f).inputBuffer = 0x01 ∧ (v.rx.get f).bitstream &&& 0x07 = 0x07)

/-- 42 R163 (a), the round trip, over the nominal channel (42 R162, a premise: 92 D18) with the default dropout length. An
idle machine fed, on one face with an empty mailbox, any image of the frame of any value leaves that value in the mailbox; a
searching face gets no error bit, a face in the middle of a frame at most `noise`; silence after the frame changes nothing.
And a searching face fed any link image of any number of frames, with silence before, between and after them, ends with the
last value, overflow marking that earlier ones were not taken. (Odd parity: 93 G1, log 21; idle steps: log 1.) -/
def Obligations.FrameRoundTripThroughTheMachine : Prop :=
  ∀ (s : State) (cfg : Config) (m : Mask) (f : Face),
    usable s.config → s.config.dropoutZeroSamples = 8 → s.idle = true → (s.rx.get f).lastValue = 0x00 →
    (∀ (v : Phy) (w c : List Bool), IsImage (frameTrace cfg m v) w → IsSilence c →
      s.samples.queue.map (fun x => x.getLsbD f.val) = w ++ c →
      ∃ t : State, Host.Core.run core (w ++ c).length s = .next t ∧
        (t.rx.get f).lastValue = 0x80 ||| v.setWidth 8 ∧
        (t.rx.get f).inputBuffer = 0x00 ∧
        ((s.rx.get f).inputBuffer = 0x00 → (t.rx.get f).errorBits = (s.rx.get f).errorBits) ∧
        ((t.rx.get f).errorBits = (s.rx.get f).errorBits ∨
          (t.rx.get f).errorBits = (s.rx.get f).errorBits ||| 0b1000)) ∧
    (∀ (vs : List Phy) (w : List Bool), IsLinkImage (vs.map (frameTrace cfg m)) w →
      s.samples.queue.map (fun x => x.getLsbD f.val) = w →
      (s.rx.get f).inputBuffer = 0x00 →
      ∃ t : State, Host.Core.run core w.length s = .next t ∧
        (t.rx.get f).lastValue = (match vs.getLast? with | some v => 0x80 ||| v.setWidth 8 | none => 0x00) ∧
        (t.rx.get f).inputBuffer = 0x00 ∧
        (t.rx.get f).errorBits =
          if 2 ≤ vs.length then (s.rx.get f).errorBits ||| 0b0001 else (s.rx.get f).errorBits)

/-- 42 R163 (b), over the nominal channel (42 R162, a premise: 92 D18) with the default dropout length: an idle machine fed,
on one face in any state, any image of a frame with exactly one of the eight bit symbols sent as the other bit value, and
any silence after it, sets the parity flag of that face, delivers nothing there and leaves it searching. (Odd parity: 93 G1,
log 21; idle steps: log 1.) -/
def Obligations.CorruptedFrameIsAParityError : Prop :=
  ∀ (s : State) (cfg : Config) (m : Mask) (v : Phy) (k : Nat) (f : Face) (w c : List Bool), k < 8 →
    usable s.config → s.config.dropoutZeroSamples = 8 → s.idle = true →
    IsImage (corruptedTrace cfg m v k) w → IsSilence c →
    s.samples.queue.map (fun x => x.getLsbD f.val) = w ++ c →
    ∃ t : State, Host.Core.run core (w ++ c).length s = .next t ∧
      (t.rx.get f).lastValue = (s.rx.get f).lastValue ∧
      (t.rx.get f).errorBits.getLsbD 1 = true ∧
      (t.rx.get f).inputBuffer = 0x00 ∧
      ((s.rx.get f).inputBuffer = 0x00 → (t.rx.get f).errorBits = (s.rx.get f).errorBits ||| 0b0010)

/-! ### The consumer's operations -/

/-- 41 R140: `IR_POLL` returns the value and empties the mailbox, or returns nothing and changes nothing (92 D13). -/
def Obligations.IrPollReadsAndClearsTheMailbox : Prop :=
  ∀ (f : Face) (s : State),
    ((s.rx.get f).lastValue.getLsbD 7 = true →
      exec (.irPoll f.val) s =
        .next { s with
          rx := s.rx.set f { s.rx.get f with lastValue := 0x00 }
          result := some (.poll (some ((s.rx.get f).lastValue.setWidth 7))) }) ∧
    ((s.rx.get f).lastValue.getLsbD 7 = false →
      exec (.irPoll f.val) s = .next { s with result := some (.poll none) })

/-- 41 R142: `IR_GET_DATA` takes a value that is present; else it holds the main loop, and then each step runs the sample
steps that fall before the next poll and either takes the value that poll finds or goes on holding (92 D46). How a hold
runs in steps is the model's choice (log 15), and so is the number of sample steps (log 7): `sampleTimes n` is `n` of them. -/
def Obligations.IrGetDataHoldsUntilAValueIsPresent : Prop :=
  ∀ (f : Face) (s : State),
    ((s.rx.get f).lastValue.getLsbD 7 = true →
      exec (.irGetData f.val) s =
        .next { s with
          rx := s.rx.set f { s.rx.get f with lastValue := 0x00 }
          result := some (.value ((s.rx.get f).lastValue.setWidth 7))
          hold := none }) ∧
    ((s.rx.get f).lastValue.getLsbD 7 = false →
      exec (.irGetData f.val) s = .next { s with hold := some f }) ∧
    sampleTimes 0 s = s ∧
    (∀ (n : Nat) (t : State), exec .sampleStep s = .next t → sampleTimes (n + 1) s = sampleTimes n t) ∧
    (usable s.config → s.samplerAt = none → s.hold = some f →
      let u := sampleTimes (s.ticks.nth Config.freeTicks 0) { s with ticks := s.ticks.drop 1 }
      ((u.rx.get f).lastValue.getLsbD 7 = true →
        step s =
          .next { u with
            rx := u.rx.set f { u.rx.get f with lastValue := 0x00 }
            result := some (.value ((u.rx.get f).lastValue.setWidth 7))
            hold := none }) ∧
      ((u.rx.get f).lastValue.getLsbD 7 = false → step s = .next u))

/-- 41 R143: `IR_READ_ERRORS` returns the four flags and clears them together (92 D13). -/
def Obligations.IrReadErrorsReturnsAndClearsTheFlags : Prop :=
  ∀ (f : Face) (s : State),
    exec (.irReadErrors f.val) s =
      .next { s with
        rx := s.rx.set f { s.rx.get f with errorBits := 0b0000 }
        result := some (.errors (s.rx.get f).errorBits) }

/-! ### The serializer -/

/-- 42 R152 to R154: the three pulse groups, each followed by the inter-symbol gap. That the calls are recorded in a trace is
the spec's decision (92 D16; field: log 16); a group is a part of `TX_BYTE` and runs in a step only there (log 24). -/
def Obligations.PulseGroupsAreSent : Prop :=
  ∀ (m : Mask) (s : State), m ≠ 0 →
    exec (.txsSync m) s =
      .next { s with txTrace := s.txTrace ++ [.pulse m 4 s.config.tSyncGapUs, .idle s.config.tSymbolGapUs] } ∧
    exec (.txsZero m) s =
      .next { s with txTrace := s.txTrace ++ [.pulse m 1 s.config.tBitGapUs, .idle s.config.tSymbolGapUs] } ∧
    exec (.txsOne m) s =
      .next { s with txTrace := s.txTrace ++ [.pulse m 2 s.config.tBitGapUs, .idle s.config.tSymbolGapUs] }

/-- 42 R155: `TX_BYTE` sends the sync, the seven data bits with the highest first, and the parity bit; it writes no register.
(General knowledge of odd parity: 30 R87, 93 G1.) Run in parts, call by call, it comes to the same state (42 R158; logs 1,
24). -/
def Obligations.TxByteSendsTheFrame : Prop :=
  ∀ (m : Mask) (v : Byte) (s : State), m ≠ 0 → v.toNat < 128 →
    let bit := fun b : Bool => [TxEvent.pulse m (if b then 2 else 1) s.config.tBitGapUs, .idle s.config.tSymbolGapUs]
    let p := true ^^ v[6] ^^ v[5] ^^ v[4] ^^ v[3] ^^ v[2] ^^ v[1] ^^ v[0]
    exec (.txByte m v) s =
      .next { s with txTrace := s.txTrace ++
        ([.pulse m 4 s.config.tSyncGapUs, .idle s.config.tSymbolGapUs] ++
          bit v[6] ++ bit v[5] ++ bit v[4] ++ bit v[3] ++ bit v[2] ++ bit v[1] ++ bit v[0] ++ bit p) } ∧
    (usable s.config → s.ready = true → s.agenda = [] →
      Host.Core.run core 19 { s with agenda := [.inParts (encode (.txByte m v))] } = exec (.txByte m v) s)

/-- 42 R156, R157, R159, 30 R102: an empty mask, a PHY byte of 128 or more and a packet of no byte or of more than 18 are
refused (the spec's decisions, 92 D17, D45, D25). -/
def Obligations.TransmissionOperandsAreRefused : Prop :=
  ∀ s : State,
    (∀ v : Byte, exec (.txByte 0 v) s = .refused .emptyMask) ∧
    (∀ (m : Mask) (v : Byte), m ≠ 0 → 128 ≤ v.toNat → exec (.txByte m v) s = .refused (.phyValueTooWide v)) ∧
    (∀ i ∈ [Instr.txsSync 0, Instr.txsZero 0, Instr.txsOne 0], exec i s = .refused .emptyMask) ∧
    (∀ bytes : List Byte, exec (.txPacket 0 bytes) s = .refused .emptyMask) ∧
    (∀ (m : Mask) (bytes : List Byte), m ≠ 0 → bytes.length = 0 ∨ 18 < bytes.length →
      exec (.txPacket m bytes) s = .refused (.packetLength bytes.length))

/-- 42 R155: a frame has nine pulse groups, and `12 + popcount(v) + p` flashes, 13 at the least and 19 at the most. -/
def Obligations.FrameFlashCount : Prop :=
  ∀ (m : Mask) (v : Byte) (s t : State), exec (.txByte m v) s = .next t →
    let sent := t.txTrace.drop s.txTrace.length
    sent.length = 18 ∧
    flashes sent = 12 + popcount (v.setWidth 7) + (1 - popcount (v.setWidth 7) % 2) ∧
    13 ≤ flashes sent ∧ flashes sent ≤ 19

/-- 42 R159, 30 R101: under the reference carrier `TX_PACKET` is `TX_BYTE` of byte 0, and is refused when that is 128 or
more; under any other carrier it hands the packet over and sends whole frames and nothing else, each on faces of the
packet's mask (30 R100, 92 D25). The carrier's values and the faces of each frame are its own choice, in which it may use the
packet and all it has seen (log 8). Run in parts, call by call, it comes to the same outcome (42 R158; log 1). -/
def Obligations.TxPacketGoesThroughTheCarrier : Prop :=
  ∀ (m : Mask) (b : Byte) (bs : List Byte) (s : State), m ≠ 0 → bs.length ≤ 17 →
    (s.config.carrier = .faceOnly → b.toNat < 128 → exec (.txPacket m (b :: bs)) s = exec (.txByte m b) s) ∧
    (s.config.carrier = .faceOnly → 128 ≤ b.toNat →
      exec (.txPacket m (b :: bs)) s = .refused (.faceValueTooWide b)) ∧
    (s.config.carrier = .uninterpreted →
      exec (.txPacket m (b :: bs)) s =
        .next { s with
          carrierTx := s.carrierTx.drop 1
          carrierLog := .handed m ⟨b, bs⟩ :: s.carrierLog
          txTrace := s.txTrace ++ (s.framesAt 0 s.carrierLog m ⟨b, bs⟩).flatMap fun c : CarrierFrame =>
            frameTrace s.config (if m &&& c.part = 0 then m else m &&& c.part) c.value }) ∧
    (usable s.config → s.ready = true → s.agenda = [] →
      ∃ k : Nat, Host.Core.run core k { s with agenda := [.inParts (encode (.txPacket m (b :: bs)))] } =
        exec (.txPacket m (b :: bs)) s)

/-- 42 R160, R161: a transmission and a sample step touch disjoint state: whichever comes first, the state is the same
(92 D16, D19; log 14). And 42 R158: with any number of sample steps before, between and after the 18 calls of a `TX_BYTE` in
parts, the end is that of the `TX_BYTE` and as many sample steps (logs 1, 24). -/
def Obligations.TransmissionCommutesWithSampling : Prop :=
  (∀ (i : Instr) (s t s' : State), transmitOp i = true → exec i s = .next t → exec .sampleStep s = .next s' →
    ∃ u : State, exec .sampleStep t = .next u ∧ exec i s' = .next u) ∧
  (∀ (m : Mask) (v : Byte) (s : State) (as : List Action), m ≠ 0 → v.toNat < 128 →
    usable s.config → s.ready = true → s.agenda = [] →
    (∀ a ∈ as, a = .proceed ∨ a = .run (encode .sampleStep)) → as.count .proceed = 18 →
    Host.Core.run core (1 + as.length) { s with agenda := .inParts (encode (.txByte m v)) :: as } =
      execAll (.txByte m v :: List.replicate (as.count (.run (encode .sampleStep))) .sampleStep) s)

/-! ### Timers -/

/-- 43 R173, R174: `TimerSet` saturates at `NEVER = 2^TIMER_BITS - 1` and `Elapsed` is neither true of `NEVER` nor before
the deadline (the spec's decision, 92 D21). -/
def Obligations.TimersSaturateAndElapse : Prop :=
  ∀ (cfg : Config) (now d t : Nat),
    timerSet cfg now d = min (now + d) (2 ^ cfg.timerBits - 1) ∧
    (elapsed cfg t now = true ↔ t ≠ 2 ^ cfg.timerBits - 1 ∧ t ≤ now)

/-! ### The face channel -/

/-- 43 R180: the receive step treats the faces 0 to 5 in order (92 D43) and always completes. Run in parts, the header or
special packet of a face being a step of its own, it comes to the same state (logs 1, 4). `receiveFaces` is its treatment
of a list of faces. -/
def Obligations.ReceiveStepVisitsTheFacesInOrder : Prop :=
  ∀ s : State,
    exec .receiveStep s =
      .next (receiveFace 5 (receiveFace 4 (receiveFace 3 (receiveFace 2 (receiveFace 1 (receiveFace 0 s)))))) ∧
    receiveFaces [] s = s ∧
    (∀ (f : Face) (fs : List Face), receiveFaces (f :: fs) s = receiveFaces fs (receiveFace f s)) ∧
    (usable s.config → s.ready = true → s.agenda = [] →
      ∃ k : Nat, 7 ≤ k ∧ k ≤ 13 ∧
        Host.Core.run core k { s with agenda := [.inParts (encode .receiveStep)] } = exec .receiveStep s)

/-- 43 R180 to R183 under the reference carrier (30 R101). On one face: after the sample steps that fall before its poll
(log 7), a value in the mailbox is taken as its face value, its expiry deadline moved and its reply made due; with none,
nothing happens. And on all six at once, when no sample step falls inside the receive step: every other face, register and
slot is unchanged. -/
def Obligations.ReceiveStepUnderTheReferenceCarrier : Prop :=
  ∀ s : State, s.config.carrier = .faceOnly →
    (∀ f : Face,
      let u := sampleTimes (s.ticks.nth Config.freeTicks 0) { s with clock := s.clock.drop 1, ticks := s.ticks.drop 1 }
      ((u.rx.get f).lastValue.getLsbD 7 = true →
        receiveFace f s =
          { u with
            rx := u.rx.set f { u.rx.get f with lastValue := 0x00 }
            fc := s.fc.set f
              { s.fc.get f with
                inValue := ((u.rx.get f).lastValue.setWidth 7).setWidth 8
                expireTimer := timerSet s.config (s.clockAt 0) s.config.expireWindowMs
                sendTimer := timerSet s.config (s.clockAt 0) 0 } }) ∧
      ((u.rx.get f).lastValue.getLsbD 7 = false → receiveFace f s = u)) ∧
    (s.quietFor 6 →
      exec .receiveStep s =
        .next { s with
          clock := s.clock.drop 6
          ticks := s.ticks.drop 6
          rx := PerFace.ofFn fun f =>
            if (s.rx.get f).lastValue.getLsbD 7 then { s.rx.get f with lastValue := 0x00 } else s.rx.get f
          fc := PerFace.ofFn fun f =>
            if (s.rx.get f).lastValue.getLsbD 7 then
              { s.fc.get f with
                inValue := ((s.rx.get f).lastValue.setWidth 7).setWidth 8
                expireTimer := timerSet s.config (s.clockAt f.val) s.config.expireWindowMs
                sendTimer := timerSet s.config (s.clockAt f.val) 0 }
            else s.fc.get f })

/-- 43 R180 to R185 on one face under any carrier, wherever sample steps fall. First its polls: before each one, the sample
steps that fall there (log 7) run; a poll empties the mailbox, and the carrier keeps what it saw. If a poll found a value
the expiry deadline moves. Then the packet: a special packet is reported and does nothing else; a normal packet gives the
face value and makes the reply due, and its header and payload, if any, are then treated as `HEADER` treats them (log 4).
How often the carrier polls and what it reports are its own choice, in which it may use all it has seen, or given (log 8). -/
def Obligations.ReceiveFaceUnderAnyCarrier : Prop :=
  ∀ (f : Face) (s : State), s.config.carrier = .uninterpreted →
    let now := s.clockAt 0
    let polled := pollTimes f (carrierAgain f s) (carrierPolls f s)
      { s with clock := s.clock.drop 1, carrierRx := s.carrierRx.drop 1 }
    let s1 : State :=
      if polled.1 then
        { polled.2 with
          fc := s.fc.set f { s.fc.get f with expireTimer := timerSet s.config now s.config.expireWindowMs } }
      else polled.2
    let packet := carrierPacket f s polled.2.carrierLog
    let normal := fun v : Byte =>
      { s1 with fc := s1.fc.set f { s1.fc.get f with inValue := v, sendTimer := timerSet s.config now 0 } }
    (packet = none → receiveFace f s = s1) ∧
    (∀ v : Byte, packet = some ⟨v, [v]⟩ → v = 0x15 ∨ v = 0x33 →
      receiveFace f s = { s1 with hostEvents := s.hostEvents ++ [.specialPacket f v] }) ∧
    (∀ v : Byte, packet = some ⟨v, []⟩ → receiveFace f s = normal v) ∧
    (∀ (v h : Byte) (payload : List Byte), packet = some ⟨v, h :: payload⟩ →
      ¬(payload = [] ∧ h = v ∧ (v = 0x15 ∨ v = 0x33)) →
      ∃ t : State, exec (.header f.val h payload) (normal v) = .next t ∧ receiveFace f s = t) ∧
    (∀ (a : CarrierAnswer) (rest : List CarrierAnswer) (log : List CarrierEvent), s.carrierRx.queue = a :: rest →
      carrierPolls f s = a.polls ∧ carrierAgain f s log = true ∧ carrierPacket f s log = a.packet) ∧
    (∀ (again : List CarrierEvent → Bool) (n : Nat) (z : State),
      let u := sampleTimes (z.ticks.nth Config.freeTicks 0) { z with ticks := z.ticks.drop 1 }
      let r := u.rx.get f
      pollTimes f again 0 z = (false, z) ∧
      (again z.carrierLog = false → pollTimes f again (n + 1) z = (false, z)) ∧
      (again z.carrierLog = true → r.lastValue.getLsbD 7 = true →
        pollTimes f again (n + 1) z =
          (true, (pollTimes f again n
            { u with
              rx := u.rx.set f { r with lastValue := 0x00 }
              carrierLog := .polled f (some (r.lastValue.setWidth 7)) :: u.carrierLog }).2)) ∧
      (again z.carrierLog = true → r.lastValue.getLsbD 7 = false →
        pollTimes f again (n + 1) z =
          pollTimes f again n { u with carrierLog := .polled f none :: u.carrierLog }))

/-- 43 R180, 60 R242: whatever the carrier does and wherever sample steps fall, the receive step completes; it takes one
clock reading for each face, sends nothing and returns nothing, and of the face-channel registers it never writes
`outValue`, `shadow`, `sequence` or `postponeSleep`; of an outbound slot it can only empty it, and an inbound slot that
holds a datagram it leaves alone. -/
def Obligations.ReceiveStepFrame : Prop :=
  ∀ s : State, ∃ t : State,
    exec .receiveStep s = .next t ∧
    t = { s with
      rx := t.rx, fc := t.fc, dgIn := t.dgIn, dgOut := t.dgOut, hostEvents := t.hostEvents, samples := t.samples,
      ticks := t.ticks, carrierLog := t.carrierLog, carrierRx := t.carrierRx, clock := s.clock.drop 6 } ∧
    ∀ f : Face,
      (t.fc.get f).outValue = (s.fc.get f).outValue ∧
      (t.fc.get f).shadow = (s.fc.get f).shadow ∧
      (t.fc.get f).header.sequence = (s.fc.get f).header.sequence ∧
      (t.fc.get f).header.postponeSleep = (s.fc.get f).header.postponeSleep ∧
      (t.dgOut.get f).bytes = (s.dgOut.get f).bytes ∧
      ((t.dgOut.get f).len = (s.dgOut.get f).len ∨ (t.dgOut.get f).len = 0) ∧
      ((s.dgIn.get f).len ≠ 0 → t.dgIn.get f = s.dgIn.get f)

/-- 43 R185, R181: a special packet received on face `f` refreshes the expiry deadline, is reported, and does nothing else.
That the rows `SPECIAL_SLEEP` and `SPECIAL_WAKE` stand for this part of the receive step is the model's reading (log 4). -/
def Obligations.SpecialPacketsAreReportedOnly : Prop :=
  ∀ (f : Face) (s : State),
    ∀ p ∈ [(Instr.specialSleep f.val, (0b00010101 : Byte)), (Instr.specialWake f.val, 0b00110011)],
      exec p.1 s =
        .next { s with
          clock := s.clock.drop 1
          fc := s.fc.set f
            { s.fc.get f with expireTimer := timerSet s.config (s.clockAt 0) s.config.expireWindowMs }
          hostEvents := s.hostEvents ++ [.specialPacket f p.2] }

/-- 43 R187, 30 R94 to R96: the packet sent is the face value, the header byte with `nonSpecial` 1, and the pending
datagram; 2 to 18 bytes; and it is never a special packet (30 R99 (a)). The layout is the spec's decision (92 D26, D27). -/
def Obligations.OutPacketLayout : Prop :=
  ∀ (f : Face) (s : State),
    ∃ h : Byte,
      (outPacket f s).bytes =
        [(s.fc.get f).outValue, h] ++
          (List.range (s.dgOut.get f).len.val).map (fun i => Memory.read (s.dgOut.get f).bytes i) ∧
      h.extractLsb' 0 3 = (s.fc.get f).header.sequence ∧
      h.extractLsb' 3 3 = (s.fc.get f).header.ackSequence ∧
      h.getLsbD 6 = (s.fc.get f).header.postponeSleep ∧
      h.getLsbD 7 = true ∧
      2 ≤ (outPacket f s).bytes.length ∧ (outPacket f s).bytes.length ≤ 18 ∧
      isSpecial (outPacket f s) = false

/-- 43 R186, R188, 30 R101: under the reference carrier, when every face that is due has a value below 128, the send step
sends the frame of the face value on each due face in order, moves its `sendTimer` a probe interval past the clock reading
made for it, and changes nothing else. Run in parts, call by call, it comes to the same state (42 R158; log 1). -/
def Obligations.SendStepUnderTheReferenceCarrier : Prop :=
  ∀ s : State, s.config.carrier = .faceOnly →
    (∀ f : Face, elapsed s.config (s.fc.get f).sendTimer (s.clockAt f.val) = true →
      (s.fc.get f).outValue.toNat < 128) →
    (usable s.config → s.ready = true → s.agenda = [] →
      ∃ k : Nat, Host.Core.run core k { s with agenda := [.inParts (encode .sendStep)] } = exec .sendStep s) ∧
    exec .sendStep s =
      .next { s with
        clock := s.clock.drop 6
        txTrace := s.txTrace ++ allFaces.flatMap fun f =>
          if elapsed s.config (s.fc.get f).sendTimer (s.clockAt f.val) then
            frameTrace s.config (1 <<< f.val) ((s.fc.get f).outValue.setWidth 7)
          else []
        fc := PerFace.ofFn fun f =>
          if elapsed s.config (s.fc.get f).sendTimer (s.clockAt f.val) then
            { s.fc.get f with
              sendTimer := timerSet s.config (s.clockAt f.val) s.config.probeIntervalMs }
          else s.fc.get f }

/-- 43 R186 to R188, 30 R100: under any other carrier the send step always completes; it moves the `sendTimer` of exactly the
due faces, hands the packets of the due faces to the carrier in order, appends to `txTrace` whole frames, those the carrier
chooses for each packet, on that face alone, and changes no other register. The carrier's choice may use the packet and all
it has seen (92 D25; log 8). Run in parts, call by call, it comes to the same state (42 R158; log 1). -/
def Obligations.SendStepUnderAnyCarrier : Prop :=
  ∀ s : State, s.config.carrier = .uninterpreted →
    let due := allFaces.filter fun f => elapsed s.config (s.fc.get f).sendTimer (s.clockAt f.val)
    (usable s.config → s.ready = true → s.agenda = [] →
      ∃ k : Nat, Host.Core.run core k { s with agenda := [.inParts (encode .sendStep)] } = exec .sendStep s) ∧
    exec .sendStep s =
      .next { s with
        clock := s.clock.drop 6
        carrierTx := s.carrierTx.drop due.length
        carrierLog := s.handedOver due ++ s.carrierLog
        txTrace := s.txTrace ++ due.zipIdx.flatMap fun p =>
          (s.framesAt p.2 (s.handedOver (due.take p.2) ++ s.carrierLog) (1 <<< p.1.val) (outPacket p.1 s)).flatMap
            fun c : CarrierFrame => frameTrace s.config (1 <<< p.1.val) c.value
        fc := PerFace.ofFn fun f =>
          if elapsed s.config (s.fc.get f).sendTimer (s.clockAt f.val) then
            { s.fc.get f with
              sendTimer := timerSet s.config (s.clockAt f.val) s.config.probeIntervalMs }
          else s.fc.get f }

/-- 43 R190, 70 R279, 30 R101: under the reference carrier a send step that comes to a due face whose value is 128 or more
is refused. -/
def Obligations.SendStepRefusesAWideFaceValue : Prop :=
  ∀ (s : State) (f : Face), s.config.carrier = .faceOnly →
    elapsed s.config (s.fc.get f).sendTimer (s.clockAt f.val) = true → 128 ≤ (s.fc.get f).outValue.toNat →
    ∃ v : Byte, 128 ≤ v.toNat ∧ exec .sendStep s = .refused (.faceValueTooWide v)

/-- 43 R190, R191: the setters write `outValue`, of one face or of all, and nothing else. -/
def Obligations.SettersWriteTheOutgoingValue : Prop :=
  ∀ (v : Byte) (s : State),
    (∀ f : Face,
      exec (.setOutgoingValue f.val v) s = .next { s with fc := s.fc.set f { s.fc.get f with outValue := v } }) ∧
    exec (.setOutgoingValueAll v) s =
      .next { s with fc := PerFace.ofFn fun f => { s.fc.get f with outValue := v } }

/-- 43 R192: `GET_INCOMING_VALUE` returns `inValue` and changes nothing (92 D31). -/
def Obligations.GetIncomingValueReturnsTheLastValue : Prop :=
  ∀ (f : Face) (s : State),
    exec (.getIncomingValue f.val) s = .next { s with result := some (.byte (s.fc.get f).inValue) }

/-- 43 R193: `DID_VALUE_CHANGE` tells whether `inValue` differs from `shadow`, and copies it there (92 D30). -/
def Obligations.DidValueChangeComparesAndCopies : Prop :=
  ∀ (f : Face) (s : State),
    exec (.didValueChange f.val) s =
      .next { s with
        fc := s.fc.set f { s.fc.get f with shadow := (s.fc.get f).inValue }
        result := some (.flag (decide ((s.fc.get f).inValue ≠ (s.fc.get f).shadow))) }

/-- 43 R194, R195, R172: `IS_EXPIRED` and `IS_ALONE` read the clock once and answer whether the expiry deadline of the face,
or of all six faces, has passed. One reading for each query and the elapsed test are the spec's decisions (92 D21, D22); the
clock's answers and the field that holds the returned value are the model's choices (logs 6, 16). -/
def Obligations.ExpiryQueriesReadTheClockOnce : Prop :=
  ∀ s : State,
    (∀ f : Face,
      exec (.isExpired f.val) s =
        .next { s with
          clock := s.clock.drop 1
          result := some (.flag (elapsed s.config (s.fc.get f).expireTimer (s.clockAt 0))) }) ∧
    exec .isAlone s =
      .next { s with
        clock := s.clock.drop 1
        result := some (.flag (decide
          (∀ f : Face, elapsed s.config (s.fc.get f).expireTimer (s.clockAt 0) = true))) }

/-! ### The datagram sequencer -/

/-- 44 R202, R204: a datagram of 1 to 16 bytes is armed on an empty slot: it is stored whole, its length recorded, the
sequence number incremented modulo 8, and the answer is 1; nothing else changes. -/
def Obligations.SendDatagramArmsTheSlot : Prop :=
  ∀ (f : Face) (bytes : List Byte) (s : State), s.inv = true →
    (s.dgOut.get f).len = 0 → 1 ≤ bytes.length → bytes.length ≤ 16 →
    bytes.head? ≠ some 0x15 → bytes.head? ≠ some 0x33 →
    ∃ sl : Slot,
      exec (.sendDatagram f.val bytes) s =
        .next { s with
          dgOut := s.dgOut.set f sl
          fc := s.fc.set f
            { s.fc.get f with
              header := { (s.fc.get f).header with sequence := (s.fc.get f).header.sequence + 1 } }
          result := some (.flag true) } ∧
      sl.len.val = bytes.length ∧ sl.content = bytes ∧
      ∀ i : Nat, Memory.read sl.bytes i =
        if i < bytes.length then bytes.getD i 0 else Memory.read (s.dgOut.get f).bytes i

/-- 44 R202, R203: an occupied slot, a payload of no byte or of more than 16 fails: the answer is 0 and no state changes; a
payload that begins with a reserved constant is refused. Length 0 and the refusal are the spec's decisions (92 D34, D29). -/
def Obligations.SendDatagramFailsOrIsRefused : Prop :=
  ∀ (f : Face) (bytes : List Byte) (s : State),
    (bytes.head? ≠ some 0x15 → bytes.head? ≠ some 0x33 →
      (s.dgOut.get f).len ≠ 0 ∨ bytes.length = 0 ∨ 16 < bytes.length →
      exec (.sendDatagram f.val bytes) s = .next { s with result := some (.flag false) }) ∧
    (∀ b : Byte, bytes.head? = some b → b = 0x15 ∨ b = 0x33 →
      exec (.sendDatagram f.val bytes) s = .refused (.reservedPayload b))

/-- 44 R207, R210 to R212, R221: what a header with `nonSpecial = 1` and the payload behind it do: `postponeSleep` is
reported; an `ack` equal to the local `sequence` empties the outbound slot; a payload with a `seq` other than the local
`ackSequence` is stored in an empty inbound slot and its number recorded; nothing else changes. And R208 (92 D44): a header
with `nonSpecial = 0`, or more than 16 bytes behind the header, does nothing. That the row `HEADER` stands for this is the
model's reading (log 4). -/
def Obligations.HeaderAcknowledgesAndDelivers : Prop :=
  (∀ (f : Face) (h : Byte) (payload : List Byte) (s : State), s.inv = true →
    h.getLsbD 7 = true → payload.length ≤ 16 →
    let c := s.fc.get f
    let taken := 1 ≤ payload.length ∧ h.extractLsb' 0 3 ≠ c.header.ackSequence ∧ (s.dgIn.get f).len = 0
    ∃ t : State,
      exec (.header f.val h payload) s = .next t ∧
      t = { s with
        hostEvents := s.hostEvents ++ (if h.getLsbD 6 then [.postponeSleepSeen f] else [])
        dgOut :=
          if h.extractLsb' 3 3 = c.header.sequence then s.dgOut.set f { s.dgOut.get f with len := 0 } else s.dgOut
        dgIn := t.dgIn
        fc :=
          if taken then s.fc.set f { c with header := { c.header with ackSequence := h.extractLsb' 0 3 } } else s.fc } ∧
      (∀ g : Face, g ≠ f → t.dgIn.get g = s.dgIn.get g) ∧
      (taken → (t.dgIn.get f).content = payload ∧ (t.dgIn.get f).len.val = payload.length ∧
        ∀ i : Nat, Memory.read (t.dgIn.get f).bytes i =
          if i < payload.length then payload.getD i 0 else Memory.read (s.dgIn.get f).bytes i) ∧
      (¬taken → t.dgIn.get f = s.dgIn.get f)) ∧
  (∀ (f : Face) (h : Byte) (payload : List Byte) (s : State),
    h.getLsbD 7 = false ∨ 16 < payload.length → exec (.header f.val h payload) s = .next s)

/-- 44 R217: `CONSUME_DATAGRAM` makes the length of the inbound slot 0 and leaves `ackSequence`, so that a retransmission of
the datagram just consumed is still recognised as a duplicate: a packet with that `seq` is not accepted. On an empty slot it
changes nothing. -/
def Obligations.ConsumedDatagramStaysAcknowledged : Prop :=
  ∀ (f : Face) (s : State),
    ∃ t : State,
      exec (.consumeDatagram f.val) s = .next t ∧
      t = { s with dgIn := t.dgIn } ∧
      (t.dgIn.get f).len = 0 ∧
      (∀ g : Face, g ≠ f → t.dgIn.get g = s.dgIn.get g) ∧
      (t.fc.get f).header.ackSequence = (s.fc.get f).header.ackSequence ∧
      (∀ (h : Byte) (payload : List Byte), h.extractLsb' 0 3 = (s.fc.get f).header.ackSequence →
        (datagramReceive f h payload t).dgIn = t.dgIn) ∧
      ((s.dgIn.get f).len = 0 → t = s)

/-- 44 R205, R214 to R216: the queries return what the slots hold and change nothing; that reading a datagram or its length
does not free the slot is the spec's decision (92 D36), the field that holds the returned value the model's choice (log 16). -/
def Obligations.DatagramQueriesOnlyRead : Prop :=
  ∀ (f : Face) (s : State),
    exec (.isDatagramPending f.val) s =
      .next { s with result := some (.flag (decide ((s.dgOut.get f).len ≠ 0))) } ∧
    exec (.isDatagramReady f.val) s =
      .next { s with result := some (.flag (decide ((s.dgIn.get f).len ≠ 0))) } ∧
    exec (.datagramLength f.val) s = .next { s with result := some (.length (s.dgIn.get f).len) } ∧
    exec (.getDatagram f.val) s =
      .next { s with result := some (.bytes
        ((List.range (s.dgIn.get f).len.val).map fun i => Memory.read (s.dgIn.get f).bytes i)) }

/-- 44 R217: `CONSUME_DATAGRAM` empties the inbound slot and leaves `ackSequence` as it is. That the bytes of the freed slot
stay is the model's choice (log 11; 93 I19 leaves them open). -/
def Obligations.ConsumeDatagramFreesTheSlot : Prop :=
  ∀ (f : Face) (s : State),
    exec (.consumeDatagram f.val) s =
      .next { s with dgIn := s.dgIn.set f { s.dgIn.get f with len := 0 } }

/-- 44 R220: `SET_POSTPONE_SLEEP` writes the header bit and nothing else (92 D38). -/
def Obligations.SetPostponeSleepWritesTheHeaderBit : Prop :=
  ∀ (f : Face) (b : Bool) (s : State),
    exec (.setPostponeSleep f.val b) s =
      .next { s with
        fc := s.fc.set f
          { s.fc.get f with header := { (s.fc.get f).header with postponeSleep := b } } }

/-- 44 R218 (b), R222, R211: a datagram armed at tile A on face `f` rides in A's next packet on that face; where tile B has
not accepted its number and has an empty slot, B's host reads exactly the bytes A's host sent; the header B then sends back
empties A's slot; and a retransmission of A's packet after B's host consumed the datagram delivers nothing again. -/
def Obligations.DatagramIsDeliveredOnceAndAcknowledged : Prop :=
  ∀ (f g : Face) (bytes : List Byte) (a b : State), a.inv = true → b.inv = true →
    (a.dgOut.get f).len = 0 → 1 ≤ bytes.length → bytes.length ≤ 16 →
    bytes.head? ≠ some 0x15 → bytes.head? ≠ some 0x33 →
    (b.dgIn.get g).len = 0 → (b.fc.get g).header.ackSequence ≠ (a.fc.get f).header.sequence + 1 →
    ∃ (a1 a2 b1 b2 b3 b4 : State) (h k : Byte),
      exec (.sendDatagram f.val bytes) a = .next a1 ∧
      (outPacket f a1).rest = h :: bytes ∧
      exec (.header g.val h bytes) b = .next b1 ∧
      exec (.getDatagram g.val) b1 = .next b2 ∧ b2.result = some (.bytes bytes) ∧
      (outPacket g b1).rest.head? = some k ∧
      exec (.header f.val k []) a1 = .next a2 ∧ (a2.dgOut.get f).len = 0 ∧
      exec (.consumeDatagram g.val) b2 = .next b3 ∧
      exec (.header g.val h bytes) b3 = .next b4 ∧ (b4.dgIn.get g).len = 0

/-! ### Whole-machine rules -/

/-- 43 R171, 00 R10: an operation with a face operand is refused when that is not in 0 to 5 (92 D45). -/
def Obligations.FaceAboveFiveIsRefused : Prop :=
  ∀ (i : Instr) (s : State) (f : Nat), faceOperand i = some f → 6 ≤ f → exec i s = .refused (.faceOutOfRange f)

/-- 00 R5: the two operations of the sleep protocol are refused by name (92 D39). -/
def Obligations.SleepProtocolIsRefused : Prop :=
  ∀ s : State,
    exec .enterSleep s = .refused .enterSleepOutOfScope ∧
    exec .notifyActivity s = .refused .notifyActivityOutOfScope

/-- 00 R15: the only refusals are the domain's: every well-formed operation of the block completes, except that under the
reference carrier one may come upon a face value of 128 or more, and the two of the sleep protocol. -/
def Obligations.WellFormedOperationsComplete : Prop :=
  ∀ (i : Instr) (s : State), i.wellFormed = true → i ≠ .enterSleep → i ≠ .notifyActivity →
    (∃ t : State, exec i s = .next t) ∨
    (s.config.carrier = .faceOnly ∧ (i = .sendStep ∨ ∃ m bytes, i = .txPacket m bytes) ∧
      ∃ v : Byte, 128 ≤ v.toNat ∧ exec i s = .refused (.faceValueTooWide v))

/-- 60 R242, the sampler's column: its operations write nothing but `rx` and take nothing but samples. -/
def Obligations.SamplerTouchesOnlyReceiveState : Prop :=
  ∀ (i : Instr) (s t : State), samplerOp i = true → exec i s = .next t →
    t = { s with rx := t.rx, samples := t.samples }

/-- 10 R21: the receive registers belong to the sampler. No operation of the main loop writes `bitstream` or `inputBuffer`,
sets an error bit or puts a value in a mailbox; it can only empty a mailbox by `IR_POLL` or `IR_GET_DATA` and clear the flags
by `IR_READ_ERRORS`, each on its own face. Nor does it see `bitstream` or `inputBuffer`: with other values there it does the
same. What `RECEIVE_STEP` does to the receive registers is what sample steps and `IR_POLL`s in some order do (log 7). And no step of
the machine writes them but inside the sampling step: one that takes no sample and is no part of a sample step (logs 1, 3)
can only empty a mailbox and clear flags. -/
def Obligations.MainLoopOnlyClearsReceiveState : Prop :=
  (∀ (i : Instr) (s t : State), samplerOp i = false → i ≠ .receiveStep → exec i s = .next t →
    t.samples = s.samples ∧
    (∀ f : Face,
      (t.rx.get f).bitstream = (s.rx.get f).bitstream ∧
      (t.rx.get f).inputBuffer = (s.rx.get f).inputBuffer ∧
      ((t.rx.get f).lastValue = (s.rx.get f).lastValue ∨
        ((t.rx.get f).lastValue = 0x00 ∧ (i = .irPoll f.val ∨ i = .irGetData f.val))) ∧
      ((t.rx.get f).errorBits = (s.rx.get f).errorBits ∨
        ((t.rx.get f).errorBits = 0b0000 ∧ i = .irReadErrors f.val))) ∧
    ∀ r : PerFace RxFace,
      (∀ f : Face, (r.get f).lastValue = (s.rx.get f).lastValue ∧ (r.get f).errorBits = (s.rx.get f).errorBits) →
      ∃ r' : PerFace RxFace, exec i { s with rx := r } = .next { t with rx := r' } ∧
        ∀ f : Face, (r'.get f).lastValue = (t.rx.get f).lastValue ∧ (r'.get f).errorBits = (t.rx.get f).errorBits) ∧
  (∀ s t : State, exec .receiveStep s = .next t →
    ∃ (is : List Instr) (u : State), (∀ j ∈ is, j = .sampleStep ∨ ∃ g : Face, j = .irPoll g.val) ∧
      execAll is s = .next u ∧ t.rx = u.rx ∧ t.samples = u.samples) ∧
  (∀ (s t : State) (f : Face), step s = .next t → t.samples = s.samples → s.samplerAt = none →
    (t.rx.get f).bitstream = (s.rx.get f).bitstream ∧
    (t.rx.get f).inputBuffer = (s.rx.get f).inputBuffer ∧
    ((t.rx.get f).lastValue = (s.rx.get f).lastValue ∨ (t.rx.get f).lastValue = 0x00) ∧
    ((t.rx.get f).errorBits = (s.rx.get f).errorBits ∨ (t.rx.get f).errorBits = 0b0000))

/-- 10 R28: `outValue` and the outgoing datagram buffer are written by the application's setters, `inValue` and
`ackSequence` only by the receive path. And each other register of a face channel is written only by the operations its rule
names (10 R29 to R35). `HEADER`, `SPECIAL_SLEEP` and `SPECIAL_WAKE` are parts of the receive path (log 4), and in a step
those registers, and the inbound buffer, change only in a `RECEIVE_STEP`, whole or in parts (60 R242). So the launch premise
`inValue = 0x00` of 10 R48 lasts until the main loop receives. -/
def Obligations.FaceChannelRegistersHaveTheirWriters : Prop :=
  (∀ (i : Instr) (s t : State) (f : Face), exec i s = .next t →
    ((t.fc.get f).inValue ≠ (s.fc.get f).inValue → i = .receiveStep) ∧
    ((t.fc.get f).expireTimer ≠ (s.fc.get f).expireTimer →
      i = .receiveStep ∨ i = .specialSleep f.val ∨ i = .specialWake f.val) ∧
    ((t.fc.get f).outValue ≠ (s.fc.get f).outValue →
      (∃ v, i = .setOutgoingValue f.val v) ∨ ∃ v, i = .setOutgoingValueAll v) ∧
    ((t.fc.get f).sendTimer ≠ (s.fc.get f).sendTimer → i = .receiveStep ∨ i = .sendStep) ∧
    ((t.fc.get f).header.sequence ≠ (s.fc.get f).header.sequence → ∃ bytes, i = .sendDatagram f.val bytes) ∧
    ((t.fc.get f).header.ackSequence ≠ (s.fc.get f).header.ackSequence →
      i = .receiveStep ∨ ∃ h payload, i = .header f.val h payload) ∧
    ((t.fc.get f).header.postponeSleep ≠ (s.fc.get f).header.postponeSleep → ∃ b, i = .setPostponeSleep f.val b) ∧
    ((t.fc.get f).shadow ≠ (s.fc.get f).shadow → i = .didValueChange f.val) ∧
    ((t.dgOut.get f).bytes ≠ (s.dgOut.get f).bytes → ∃ bytes, i = .sendDatagram f.val bytes)) ∧
  (∀ (s t : State) (f : Face), step s = .next t →
    (t.fc.get f).inValue ≠ (s.fc.get f).inValue ∨ (t.fc.get f).expireTimer ≠ (s.fc.get f).expireTimer ∨
      (t.fc.get f).header.ackSequence ≠ (s.fc.get f).header.ackSequence ∨
      (t.dgIn.get f).bytes ≠ (s.dgIn.get f).bytes ∨ ((s.dgOut.get f).len ≠ 0 ∧ (t.dgOut.get f).len = 0) →
    s.receives = true) ∧
  (∀ s t : State, s.launch = true → s.receives = false → step s = .next t → t.launch = true)

/-- 10 R37, R34: the outbound slot of a face goes from empty to occupied only in `SEND_DATAGRAM` on that face, with the
sequence number incremented, and from occupied to empty only by a header whose `ack` equals `sequence` (92 D37): in
`HEADER` on that face (log 4), or in a `RECEIVE_STEP` in which the carrier reports a packet with such a header on that face
(log 8: in what it polls there and what it reports, as in `ReceiveFaceUnderAnyCarrier`). -/
def Obligations.OutboundSlotChangesOnlyByArmingAndAck : Prop :=
  ∀ (i : Instr) (s t : State) (f : Face), exec i s = .next t →
    ((s.dgOut.get f).len = 0 → (t.dgOut.get f).len ≠ 0 →
      (∃ bytes, i = .sendDatagram f.val bytes) ∧
      (t.fc.get f).header.sequence = (s.fc.get f).header.sequence + 1) ∧
    ((s.dgOut.get f).len ≠ 0 → (t.dgOut.get f).len = 0 →
      (i = .receiveStep ∧ s.config.carrier = .uninterpreted ∧
        let u := receiveFaces (allFaces.take f.val) s
        let polled := pollTimes f (carrierAgain f u) (carrierPolls f u)
          { u with clock := u.clock.drop 1, carrierRx := u.carrierRx.drop 1 }
        ∃ (v h : Byte) (payload : List Byte), carrierPacket f u polled.2.carrierLog = some ⟨v, h :: payload⟩ ∧
          h.getLsbD 7 = true ∧ h.extractLsb' 3 3 = (s.fc.get f).header.sequence) ∨
      ∃ h payload, i = .header f.val h payload ∧ h.getLsbD 7 = true ∧
        h.extractLsb' 3 3 = (s.fc.get f).header.sequence) ∧
    ((s.dgOut.get f).len ≠ 0 → (t.dgOut.get f).len ≠ 0 → t.dgOut.get f = s.dgOut.get f)

/-- 43 R184, 42 R150, 60 R242: the traces only grow: nothing that was sent or reported is taken back; and pulses are added
only by a `TX_BYTE`, whole or in parts, or what calls it, reports only by a `RECEIVE_STEP`, whole or in parts. -/
def Obligations.TracesOnlyGrow : Prop :=
  ∀ s t : State, step s = .next t →
    (∃ es, t.txTrace = s.txTrace ++ es) ∧ (∃ hs, t.hostEvents = s.hostEvents ++ hs) ∧
    (t.txTrace ≠ s.txTrace → s.transmits = true) ∧ (t.hostEvents ≠ s.hostEvents → s.receives = true)
end

