-- ==== Sys2Proof/Laws/State.lean ====
section
/-! SUPPORT. One lemma per field per update of State, and the read-after-write lemmas of the six-face register file. -/

namespace Sys2Proof

namespace PerFace

variable {α : Type}

@[simp] theorem get_set_same (v : PerFace α) (f : Face) (a : α) : (v.set f a).get f = a := by
  fin_cases f <;> rfl

theorem get_set_of_ne (v : PerFace α) {f g : Face} (a : α) (h : g ≠ f) : (v.set f a).get g = v.get g := by
  fin_cases f <;> fin_cases g <;> first | rfl | exact absurd rfl h

theorem get_set (v : PerFace α) (f g : Face) (a : α) :
    (v.set f a).get g = if g = f then a else v.get g := by
  by_cases h : g = f
  · subst h; simp
  · simp [h, get_set_of_ne v a h]

@[simp] theorem get_ofFn (g : Face → α) (f : Face) : (ofFn g).get f = g f := by
  fin_cases f <;> rfl

theorem ext_get {v w : PerFace α} (h : ∀ f, v.get f = w.get f) : v = w := by
  obtain ⟨a0, a1, a2, a3, a4, a5⟩ := v
  obtain ⟨b0, b1, b2, b3, b4, b5⟩ := w
  have h0 := h 0
  have h1 := h 1
  have h2 := h 2
  have h3 := h 3
  have h4 := h 4
  have h5 := h 5
  simp only [get] at h0 h1 h2 h3 h4 h5
  simp [h0, h1, h2, h3, h4, h5]

@[simp] theorem set_get_self (v : PerFace α) (f : Face) : v.set f (v.get f) = v := by
  fin_cases f <;> rfl

@[simp] theorem set_set (v : PerFace α) (f : Face) (a b : α) : (v.set f a).set f b = v.set f b := by
  fin_cases f <;> rfl

end PerFace

theorem mem_allFaces (f : Face) : f ∈ allFaces := by
  fin_cases f <;> simp [allFaces]

namespace Machine

variable (s : State)

@[simp] theorem State.onRx_eq (f : Face) (g : RxFace → RxFace) : s.onRx f g = s.setRx f (g (s.rx.get f)) := rfl
@[simp] theorem State.onFc_eq (f : Face) (g : FaceChannel → FaceChannel) :
    s.onFc f g = s.setFc f (g (s.fc.get f)) := rfl
@[simp] theorem State.onHeader_eq (f : Face) (g : Header → Header) :
    s.onHeader f g = s.setFc f { s.fc.get f with header := g (s.fc.get f).header } := rfl

@[simp] theorem State.setRx_config (f : Face) (r : RxFace) : (s.setRx f r).config = s.config := rfl
@[simp] theorem State.setRx_rx (f : Face) (r : RxFace) : (s.setRx f r).rx = s.rx.set f r := rfl
@[simp] theorem State.setRx_fc (f : Face) (r : RxFace) : (s.setRx f r).fc = s.fc := rfl
@[simp] theorem State.setRx_dgIn (f : Face) (r : RxFace) : (s.setRx f r).dgIn = s.dgIn := rfl
@[simp] theorem State.setRx_dgOut (f : Face) (r : RxFace) : (s.setRx f r).dgOut = s.dgOut := rfl
@[simp] theorem State.setRx_txTrace (f : Face) (r : RxFace) : (s.setRx f r).txTrace = s.txTrace := rfl
@[simp] theorem State.setRx_hostEvents (f : Face) (r : RxFace) : (s.setRx f r).hostEvents = s.hostEvents := rfl
@[simp] theorem State.setRx_result (f : Face) (r : RxFace) : (s.setRx f r).result = s.result := rfl
@[simp] theorem State.setRx_agenda (f : Face) (r : RxFace) : (s.setRx f r).agenda = s.agenda := rfl
@[simp] theorem State.setRx_mainAt (f : Face) (r : RxFace) : (s.setRx f r).mainAt = s.mainAt := rfl
@[simp] theorem State.setRx_samplerAt (f : Face) (r : RxFace) : (s.setRx f r).samplerAt = s.samplerAt := rfl
@[simp] theorem State.setRx_hold (f : Face) (r : RxFace) : (s.setRx f r).hold = s.hold := rfl
@[simp] theorem State.setRx_samples (f : Face) (r : RxFace) : (s.setRx f r).samples = s.samples := rfl
@[simp] theorem State.setRx_clock (f : Face) (r : RxFace) : (s.setRx f r).clock = s.clock := rfl
@[simp] theorem State.setRx_ticks (f : Face) (r : RxFace) : (s.setRx f r).ticks = s.ticks := rfl
@[simp] theorem State.setRx_carrierLog (f : Face) (r : RxFace) : (s.setRx f r).carrierLog = s.carrierLog := rfl
@[simp] theorem State.setRx_carrierRx (f : Face) (r : RxFace) : (s.setRx f r).carrierRx = s.carrierRx := rfl
@[simp] theorem State.setRx_carrierTx (f : Face) (r : RxFace) : (s.setRx f r).carrierTx = s.carrierTx := rfl

@[simp] theorem State.setFc_config (f : Face) (c : FaceChannel) : (s.setFc f c).config = s.config := rfl
@[simp] theorem State.setFc_rx (f : Face) (c : FaceChannel) : (s.setFc f c).rx = s.rx := rfl
@[simp] theorem State.setFc_fc (f : Face) (c : FaceChannel) : (s.setFc f c).fc = s.fc.set f c := rfl
@[simp] theorem State.setFc_dgIn (f : Face) (c : FaceChannel) : (s.setFc f c).dgIn = s.dgIn := rfl
@[simp] theorem State.setFc_dgOut (f : Face) (c : FaceChannel) : (s.setFc f c).dgOut = s.dgOut := rfl
@[simp] theorem State.setFc_txTrace (f : Face) (c : FaceChannel) : (s.setFc f c).txTrace = s.txTrace := rfl
@[simp] theorem State.setFc_hostEvents (f : Face) (c : FaceChannel) : (s.setFc f c).hostEvents = s.hostEvents := rfl
@[simp] theorem State.setFc_result (f : Face) (c : FaceChannel) : (s.setFc f c).result = s.result := rfl
@[simp] theorem State.setFc_agenda (f : Face) (c : FaceChannel) : (s.setFc f c).agenda = s.agenda := rfl
@[simp] theorem State.setFc_mainAt (f : Face) (c : FaceChannel) : (s.setFc f c).mainAt = s.mainAt := rfl
@[simp] theorem State.setFc_samplerAt (f : Face) (c : FaceChannel) : (s.setFc f c).samplerAt = s.samplerAt := rfl
@[simp] theorem State.setFc_hold (f : Face) (c : FaceChannel) : (s.setFc f c).hold = s.hold := rfl
@[simp] theorem State.setFc_samples (f : Face) (c : FaceChannel) : (s.setFc f c).samples = s.samples := rfl
@[simp] theorem State.setFc_clock (f : Face) (c : FaceChannel) : (s.setFc f c).clock = s.clock := rfl
@[simp] theorem State.setFc_ticks (f : Face) (c : FaceChannel) : (s.setFc f c).ticks = s.ticks := rfl
@[simp] theorem State.setFc_carrierLog (f : Face) (c : FaceChannel) : (s.setFc f c).carrierLog = s.carrierLog := rfl
@[simp] theorem State.setFc_carrierRx (f : Face) (c : FaceChannel) : (s.setFc f c).carrierRx = s.carrierRx := rfl
@[simp] theorem State.setFc_carrierTx (f : Face) (c : FaceChannel) : (s.setFc f c).carrierTx = s.carrierTx := rfl

@[simp] theorem State.setDgIn_config (f : Face) (sl : Slot) : (s.setDgIn f sl).config = s.config := rfl
@[simp] theorem State.setDgIn_rx (f : Face) (sl : Slot) : (s.setDgIn f sl).rx = s.rx := rfl
@[simp] theorem State.setDgIn_fc (f : Face) (sl : Slot) : (s.setDgIn f sl).fc = s.fc := rfl
@[simp] theorem State.setDgIn_dgIn (f : Face) (sl : Slot) : (s.setDgIn f sl).dgIn = s.dgIn.set f sl := rfl
@[simp] theorem State.setDgIn_dgOut (f : Face) (sl : Slot) : (s.setDgIn f sl).dgOut = s.dgOut := rfl
@[simp] theorem State.setDgIn_txTrace (f : Face) (sl : Slot) : (s.setDgIn f sl).txTrace = s.txTrace := rfl
@[simp] theorem State.setDgIn_hostEvents (f : Face) (sl : Slot) : (s.setDgIn f sl).hostEvents = s.hostEvents := rfl
@[simp] theorem State.setDgIn_result (f : Face) (sl : Slot) : (s.setDgIn f sl).result = s.result := rfl
@[simp] theorem State.setDgIn_agenda (f : Face) (sl : Slot) : (s.setDgIn f sl).agenda = s.agenda := rfl
@[simp] theorem State.setDgIn_mainAt (f : Face) (sl : Slot) : (s.setDgIn f sl).mainAt = s.mainAt := rfl
@[simp] theorem State.setDgIn_samplerAt (f : Face) (sl : Slot) : (s.setDgIn f sl).samplerAt = s.samplerAt := rfl
@[simp] theorem State.setDgIn_hold (f : Face) (sl : Slot) : (s.setDgIn f sl).hold = s.hold := rfl
@[simp] theorem State.setDgIn_samples (f : Face) (sl : Slot) : (s.setDgIn f sl).samples = s.samples := rfl
@[simp] theorem State.setDgIn_clock (f : Face) (sl : Slot) : (s.setDgIn f sl).clock = s.clock := rfl
@[simp] theorem State.setDgIn_ticks (f : Face) (sl : Slot) : (s.setDgIn f sl).ticks = s.ticks := rfl
@[simp] theorem State.setDgIn_carrierLog (f : Face) (sl : Slot) : (s.setDgIn f sl).carrierLog = s.carrierLog := rfl
@[simp] theorem State.setDgIn_carrierRx (f : Face) (sl : Slot) : (s.setDgIn f sl).carrierRx = s.carrierRx := rfl
@[simp] theorem State.setDgIn_carrierTx (f : Face) (sl : Slot) : (s.setDgIn f sl).carrierTx = s.carrierTx := rfl

@[simp] theorem State.setDgOut_config (f : Face) (sl : Slot) : (s.setDgOut f sl).config = s.config := rfl
@[simp] theorem State.setDgOut_rx (f : Face) (sl : Slot) : (s.setDgOut f sl).rx = s.rx := rfl
@[simp] theorem State.setDgOut_fc (f : Face) (sl : Slot) : (s.setDgOut f sl).fc = s.fc := rfl
@[simp] theorem State.setDgOut_dgIn (f : Face) (sl : Slot) : (s.setDgOut f sl).dgIn = s.dgIn := rfl
@[simp] theorem State.setDgOut_dgOut (f : Face) (sl : Slot) : (s.setDgOut f sl).dgOut = s.dgOut.set f sl := rfl
@[simp] theorem State.setDgOut_txTrace (f : Face) (sl : Slot) : (s.setDgOut f sl).txTrace = s.txTrace := rfl
@[simp] theorem State.setDgOut_hostEvents (f : Face) (sl : Slot) : (s.setDgOut f sl).hostEvents = s.hostEvents := rfl
@[simp] theorem State.setDgOut_result (f : Face) (sl : Slot) : (s.setDgOut f sl).result = s.result := rfl
@[simp] theorem State.setDgOut_agenda (f : Face) (sl : Slot) : (s.setDgOut f sl).agenda = s.agenda := rfl
@[simp] theorem State.setDgOut_mainAt (f : Face) (sl : Slot) : (s.setDgOut f sl).mainAt = s.mainAt := rfl
@[simp] theorem State.setDgOut_samplerAt (f : Face) (sl : Slot) : (s.setDgOut f sl).samplerAt = s.samplerAt := rfl
@[simp] theorem State.setDgOut_hold (f : Face) (sl : Slot) : (s.setDgOut f sl).hold = s.hold := rfl
@[simp] theorem State.setDgOut_samples (f : Face) (sl : Slot) : (s.setDgOut f sl).samples = s.samples := rfl
@[simp] theorem State.setDgOut_clock (f : Face) (sl : Slot) : (s.setDgOut f sl).clock = s.clock := rfl
@[simp] theorem State.setDgOut_ticks (f : Face) (sl : Slot) : (s.setDgOut f sl).ticks = s.ticks := rfl
@[simp] theorem State.setDgOut_carrierLog (f : Face) (sl : Slot) : (s.setDgOut f sl).carrierLog = s.carrierLog := rfl
@[simp] theorem State.setDgOut_carrierRx (f : Face) (sl : Slot) : (s.setDgOut f sl).carrierRx = s.carrierRx := rfl
@[simp] theorem State.setDgOut_carrierTx (f : Face) (sl : Slot) : (s.setDgOut f sl).carrierTx = s.carrierTx := rfl

@[simp] theorem State.returns_config (v : Result) : (s.returns v).config = s.config := rfl
@[simp] theorem State.returns_rx (v : Result) : (s.returns v).rx = s.rx := rfl
@[simp] theorem State.returns_fc (v : Result) : (s.returns v).fc = s.fc := rfl
@[simp] theorem State.returns_dgIn (v : Result) : (s.returns v).dgIn = s.dgIn := rfl
@[simp] theorem State.returns_dgOut (v : Result) : (s.returns v).dgOut = s.dgOut := rfl
@[simp] theorem State.returns_txTrace (v : Result) : (s.returns v).txTrace = s.txTrace := rfl
@[simp] theorem State.returns_hostEvents (v : Result) : (s.returns v).hostEvents = s.hostEvents := rfl
@[simp] theorem State.returns_result (v : Result) : (s.returns v).result = some v := rfl
@[simp] theorem State.returns_agenda (v : Result) : (s.returns v).agenda = s.agenda := rfl
@[simp] theorem State.returns_mainAt (v : Result) : (s.returns v).mainAt = s.mainAt := rfl
@[simp] theorem State.returns_samplerAt (v : Result) : (s.returns v).samplerAt = s.samplerAt := rfl
@[simp] theorem State.returns_hold (v : Result) : (s.returns v).hold = s.hold := rfl
@[simp] theorem State.returns_samples (v : Result) : (s.returns v).samples = s.samples := rfl
@[simp] theorem State.returns_clock (v : Result) : (s.returns v).clock = s.clock := rfl
@[simp] theorem State.returns_ticks (v : Result) : (s.returns v).ticks = s.ticks := rfl
@[simp] theorem State.returns_carrierLog (v : Result) : (s.returns v).carrierLog = s.carrierLog := rfl
@[simp] theorem State.returns_carrierRx (v : Result) : (s.returns v).carrierRx = s.carrierRx := rfl
@[simp] theorem State.returns_carrierTx (v : Result) : (s.returns v).carrierTx = s.carrierTx := rfl

@[simp] theorem State.transmit_config (es : List TxEvent) : (s.transmit es).config = s.config := rfl
@[simp] theorem State.transmit_rx (es : List TxEvent) : (s.transmit es).rx = s.rx := rfl
@[simp] theorem State.transmit_fc (es : List TxEvent) : (s.transmit es).fc = s.fc := rfl
@[simp] theorem State.transmit_dgIn (es : List TxEvent) : (s.transmit es).dgIn = s.dgIn := rfl
@[simp] theorem State.transmit_dgOut (es : List TxEvent) : (s.transmit es).dgOut = s.dgOut := rfl
@[simp] theorem State.transmit_txTrace (es : List TxEvent) : (s.transmit es).txTrace = s.txTrace ++ es := rfl
@[simp] theorem State.transmit_hostEvents (es : List TxEvent) : (s.transmit es).hostEvents = s.hostEvents := rfl
@[simp] theorem State.transmit_result (es : List TxEvent) : (s.transmit es).result = s.result := rfl
@[simp] theorem State.transmit_agenda (es : List TxEvent) : (s.transmit es).agenda = s.agenda := rfl
@[simp] theorem State.transmit_mainAt (es : List TxEvent) : (s.transmit es).mainAt = s.mainAt := rfl
@[simp] theorem State.transmit_samplerAt (es : List TxEvent) : (s.transmit es).samplerAt = s.samplerAt := rfl
@[simp] theorem State.transmit_hold (es : List TxEvent) : (s.transmit es).hold = s.hold := rfl
@[simp] theorem State.transmit_samples (es : List TxEvent) : (s.transmit es).samples = s.samples := rfl
@[simp] theorem State.transmit_clock (es : List TxEvent) : (s.transmit es).clock = s.clock := rfl
@[simp] theorem State.transmit_ticks (es : List TxEvent) : (s.transmit es).ticks = s.ticks := rfl
@[simp] theorem State.transmit_carrierLog (es : List TxEvent) : (s.transmit es).carrierLog = s.carrierLog := rfl
@[simp] theorem State.transmit_carrierRx (es : List TxEvent) : (s.transmit es).carrierRx = s.carrierRx := rfl
@[simp] theorem State.transmit_carrierTx (es : List TxEvent) : (s.transmit es).carrierTx = s.carrierTx := rfl

@[simp] theorem State.notify_config (e : HostEvent) : (s.notify e).config = s.config := rfl
@[simp] theorem State.notify_rx (e : HostEvent) : (s.notify e).rx = s.rx := rfl
@[simp] theorem State.notify_fc (e : HostEvent) : (s.notify e).fc = s.fc := rfl
@[simp] theorem State.notify_dgIn (e : HostEvent) : (s.notify e).dgIn = s.dgIn := rfl
@[simp] theorem State.notify_dgOut (e : HostEvent) : (s.notify e).dgOut = s.dgOut := rfl
@[simp] theorem State.notify_txTrace (e : HostEvent) : (s.notify e).txTrace = s.txTrace := rfl
@[simp] theorem State.notify_hostEvents (e : HostEvent) : (s.notify e).hostEvents = s.hostEvents ++ [e] := rfl
@[simp] theorem State.notify_result (e : HostEvent) : (s.notify e).result = s.result := rfl
@[simp] theorem State.notify_agenda (e : HostEvent) : (s.notify e).agenda = s.agenda := rfl
@[simp] theorem State.notify_mainAt (e : HostEvent) : (s.notify e).mainAt = s.mainAt := rfl
@[simp] theorem State.notify_samplerAt (e : HostEvent) : (s.notify e).samplerAt = s.samplerAt := rfl
@[simp] theorem State.notify_hold (e : HostEvent) : (s.notify e).hold = s.hold := rfl
@[simp] theorem State.notify_samples (e : HostEvent) : (s.notify e).samples = s.samples := rfl
@[simp] theorem State.notify_clock (e : HostEvent) : (s.notify e).clock = s.clock := rfl
@[simp] theorem State.notify_ticks (e : HostEvent) : (s.notify e).ticks = s.ticks := rfl
@[simp] theorem State.notify_carrierLog (e : HostEvent) : (s.notify e).carrierLog = s.carrierLog := rfl
@[simp] theorem State.notify_carrierRx (e : HostEvent) : (s.notify e).carrierRx = s.carrierRx := rfl
@[simp] theorem State.notify_carrierTx (e : HostEvent) : (s.notify e).carrierTx = s.carrierTx := rfl

@[simp] theorem State.afterNow_config : s.afterNow.config = s.config := rfl
@[simp] theorem State.afterNow_rx : s.afterNow.rx = s.rx := rfl
@[simp] theorem State.afterNow_fc : s.afterNow.fc = s.fc := rfl
@[simp] theorem State.afterNow_dgIn : s.afterNow.dgIn = s.dgIn := rfl
@[simp] theorem State.afterNow_dgOut : s.afterNow.dgOut = s.dgOut := rfl
@[simp] theorem State.afterNow_txTrace : s.afterNow.txTrace = s.txTrace := rfl
@[simp] theorem State.afterNow_hostEvents : s.afterNow.hostEvents = s.hostEvents := rfl
@[simp] theorem State.afterNow_result : s.afterNow.result = s.result := rfl
@[simp] theorem State.afterNow_agenda : s.afterNow.agenda = s.agenda := rfl
@[simp] theorem State.afterNow_mainAt : s.afterNow.mainAt = s.mainAt := rfl
@[simp] theorem State.afterNow_samplerAt : s.afterNow.samplerAt = s.samplerAt := rfl
@[simp] theorem State.afterNow_hold : s.afterNow.hold = s.hold := rfl
@[simp] theorem State.afterNow_samples : s.afterNow.samples = s.samples := rfl
@[simp] theorem State.afterNow_clock : s.afterNow.clock = s.clock.advance := rfl
@[simp] theorem State.afterNow_ticks : s.afterNow.ticks = s.ticks := rfl
@[simp] theorem State.afterNow_carrierLog : s.afterNow.carrierLog = s.carrierLog := rfl
@[simp] theorem State.afterNow_carrierRx : s.afterNow.carrierRx = s.carrierRx := rfl
@[simp] theorem State.afterNow_carrierTx : s.afterNow.carrierTx = s.carrierTx := rfl

/-! ### Ports -/

@[simp] theorem Feed.peek_nil {α : Type} (free : Nat → α) (n : Nat) : (Feed.mk [] n).peek free = free n := rfl
@[simp] theorem Feed.peek_cons {α : Type} (free : Nat → α) (a : α) (q : List α) (n : Nat) :
    (Feed.mk (a :: q) n).peek free = a := rfl
@[simp] theorem Feed.advance_mk {α : Type} (q : List α) (n : Nat) : (Feed.mk q n).advance = ⟨q.tail, n + 1⟩ := rfl

theorem Feed.peek_eq_nth {α : Type} (free : Nat → α) (p : Feed α) : p.peek free = p.nth free 0 := by
  obtain ⟨q, n⟩ := p
  cases q <;> simp [Feed.nth]

theorem Feed.nth_advance {α : Type} (free : Nat → α) (p : Feed α) (k : Nat) :
    p.advance.nth free k = p.nth free (k + 1) := by
  obtain ⟨q, n⟩ := p
  cases q <;> simp [Feed.nth, Nat.add_assoc, Nat.add_comm 1 k]

end Machine

end Sys2Proof
end

