-- ==== Sys2Proof/Laws/Memory.lean ====
section
/-! SUPPORT. The datagram buffers: read after write, and that every memory operation keeps the canonical form. -/

namespace Sys2Proof.Machine

open Memory

theorem Memory.canonicalFrom_cons (lo hi i : Nat) (v : Byte) (m : Memory) :
    canonicalFrom lo hi ((i, v) :: m) = true ↔
      lo ≤ i ∧ i < hi ∧ v ≠ Config.freshByte ∧ canonicalFrom (i + 1) hi m = true := by
  simp [canonicalFrom, and_assoc]

theorem Memory.canonicalFrom_weaken {lo lo' hi : Nat} (h : lo' ≤ lo) :
    ∀ m : Memory, canonicalFrom lo hi m = true → canonicalFrom lo' hi m = true
  | [], _ => rfl
  | (i, v) :: m, hm => by
    rw [canonicalFrom_cons] at hm ⊢
    exact ⟨by omega, hm.2.1, hm.2.2.1, hm.2.2.2⟩

/-- Below its first listed index a canonical buffer has nothing written. -/
theorem Memory.read_below {lo hi i : Nat} (h : i < lo) :
    ∀ m : Memory, canonicalFrom lo hi m = true → m.read i = Config.freshByte
  | [], _ => rfl
  | (j, v) :: m, hm => by
    rw [canonicalFrom_cons] at hm
    have hij : i ≠ j := by omega
    simp only [read, if_neg hij]
    exact read_below (by omega) m hm.2.2.2

theorem Memory.read_put {lo hi i j : Nat} {v : Byte} {m : Memory} (hm : canonicalFrom lo hi m = true)
    (hi : i < lo) : (put i v m).read j = if j = i then v else m.read j := by
  by_cases hv : v = Config.freshByte
  · by_cases hj : j = i
    · subst hj; simp [put, hv, read_below hi m hm]
    · simp [put, hv, hj]
  · by_cases hj : j = i <;> simp [put, hv, read, hj]

theorem Memory.canonicalFrom_put {lo hi i : Nat} {v : Byte} {m : Memory}
    (hm : canonicalFrom (i + 1) hi m = true) (hlo : lo ≤ i) (hhi : i < hi) :
    canonicalFrom lo hi (put i v m) = true := by
  by_cases hv : v = Config.freshByte
  · simpa [put, hv] using canonicalFrom_weaken (by omega) m hm
  · simp only [put, if_neg hv, canonicalFrom_cons]
    exact ⟨hlo, hhi, hv, hm⟩

/-- A write keeps the canonical form. -/
theorem Memory.canonicalFrom_write {hi i : Nat} {v : Byte} (hhi : i < hi) :
    ∀ {lo : Nat} (m : Memory), canonicalFrom lo hi m = true → lo ≤ i → canonicalFrom lo hi (write m i v) = true
  | lo, [], _, hlo => canonicalFrom_put rfl hlo hhi
  | lo, (j, w) :: m, hm, hlo => by
    have hc := (canonicalFrom_cons _ _ _ _ _).mp hm
    simp only [write]
    split_ifs with h1 h2
    · exact canonicalFrom_put ((canonicalFrom_cons _ _ _ _ _).mpr ⟨by omega, hc.2.1, hc.2.2.1, hc.2.2.2⟩) hlo hhi
    · subst h2; exact canonicalFrom_put hc.2.2.2 hlo hhi
    · rw [canonicalFrom_cons]
      exact ⟨hc.1, hc.2.1, hc.2.2.1, canonicalFrom_write hhi m hc.2.2.2 (by omega)⟩

/-- Reading after a write gives the value written at its index and the old byte anywhere else. -/
theorem Memory.read_write_from {hi i j : Nat} {v : Byte} :
    ∀ {lo : Nat} (m : Memory), canonicalFrom lo hi m = true →
      (write m i v).read j = if j = i then v else m.read j
  | lo, [], _ => read_put (lo := i + 1) (hi := hi) rfl (Nat.lt_succ_self i)
  | lo, (k, w) :: m, hm => by
    have hc := (canonicalFrom_cons _ _ _ _ _).mp hm
    have ih := read_write_from (i := i) (j := j) (v := v) m hc.2.2.2
    rcases lt_trichotomy i k with h | h | h
    · have hk : canonicalFrom k hi ((k, w) :: m) = true :=
        (canonicalFrom_cons _ _ _ _ _).mpr ⟨le_refl _, hc.2.1, hc.2.2.1, hc.2.2.2⟩
      rw [write, if_pos h, read_put hk h]
    · subst h
      rw [write, if_neg (lt_irrefl _), if_pos rfl, read_put hc.2.2.2 (Nat.lt_succ_self _)]
      by_cases hj : j = i <;> simp [read, hj]
    · rw [write, if_neg (by omega), if_neg (by omega)]
      by_cases hjk : j = k
      · simp [read, hjk, show ¬k = i by omega]
      · simp [read, hjk, ih]

theorem Memory.wf_nil : Memory.wf [] = true := rfl

theorem Memory.wf_write {m : Memory} {i : Nat} {v : Byte} (hm : m.wf = true) (hi : i < 16) :
    Memory.wf (m.write i v) = true :=
  canonicalFrom_write hi m hm (Nat.zero_le _)

theorem Memory.read_write {m : Memory} {i j : Nat} {v : Byte} (hm : m.wf = true) :
    (m.write i v).read j = if j = i then v else m.read j :=
  read_write_from m hm

/-- Writing a list of bytes inside the buffer keeps the canonical form. -/
theorem Memory.wf_writeAll : ∀ (bs : List Byte) {m : Memory} {i : Nat}, m.wf = true → i + bs.length ≤ 16 →
    Memory.wf (m.writeAll i bs) = true
  | [], _, _, hm, _ => hm
  | b :: bs, m, i, hm, h => by
    simp only [List.length_cons] at h
    exact wf_writeAll bs (wf_write hm (by omega)) (by omega)

/-- Reading after a list of bytes was written. -/
theorem Memory.read_writeAll : ∀ (bs : List Byte) {m : Memory} {i j : Nat}, m.wf = true → i + bs.length ≤ 16 →
    (m.writeAll i bs).read j = if i ≤ j ∧ j < i + bs.length then bs.getD (j - i) 0 else m.read j
  | [], m, i, j, _, _ => by
    rw [if_neg (by simp only [List.length_nil]; omega)]
    rfl
  | b :: bs, m, i, j, hm, h => by
    simp only [List.length_cons] at h
    rw [writeAll, read_writeAll bs (wf_write hm (by omega)) (by omega), read_write hm]
    simp only [List.length_cons]
    by_cases h1 : j = i
    · subst h1
      rw [if_neg (by omega), if_pos rfl, if_pos (by omega)]
      simp
    · by_cases h2 : i ≤ j ∧ j < i + (bs.length + 1)
      · rw [if_pos (by omega), if_pos h2]
        obtain ⟨d, hd⟩ : ∃ d, j - i = d + 1 := ⟨j - i - 1, by omega⟩
        rw [hd, show j - (i + 1) = d by omega]
        simp
      · rw [if_neg (by omega), if_neg h1, if_neg h2]

@[simp] theorem Memory.readAll_zero (m : Memory) (i : Nat) : m.readAll i 0 = [] := rfl

@[simp] theorem Memory.length_readAll (m : Memory) : ∀ (n i : Nat), (m.readAll i n).length = n
  | 0, _ => rfl
  | n + 1, i => by simp [readAll, length_readAll m n]

theorem Memory.getElem_readAll (m : Memory) : ∀ (n i k : Nat) (h : k < (m.readAll i n).length),
    (m.readAll i n)[k] = m.read (i + k)
  | 0, _, _, h => absurd h (by simp)
  | n + 1, i, 0, _ => rfl
  | n + 1, i, k + 1, h => by
    simp only [readAll, List.getElem_cons_succ]
    rw [getElem_readAll m n (i + 1) k, Nat.add_assoc, Nat.add_comm 1 k]

/-- The first `n` bytes, one by one. -/
theorem Memory.readAll_eq_map (m : Memory) (n : Nat) : m.readAll 0 n = (List.range n).map m.read := by
  apply List.ext_getElem
  · simp
  · intro k h1 h2
    rw [Memory.getElem_readAll]
    simp

/-! ### Slots -/

@[simp] theorem Slot.free_bytes (sl : Slot) : sl.free.bytes = sl.bytes := rfl
@[simp] theorem Slot.free_len (sl : Slot) : sl.free.len = 0 := rfl
@[simp] theorem Slot.full_free (sl : Slot) : sl.free.full = false := rfl
@[simp] theorem Slot.fill_bytes (sl : Slot) (bs : List Byte) : (sl.fill bs).bytes = Memory.writeAll sl.bytes 0 bs := rfl

theorem Slot.len_fill {sl : Slot} {bs : List Byte} (h : bs.length ≤ 16) : (sl.fill bs).len.val = bs.length := by
  simp only [fill, Fin.ofNat]
  omega

theorem Slot.full_eq_false {sl : Slot} : sl.full = false ↔ sl.len = 0 := by simp [full]

theorem Slot.full_eq_true {sl : Slot} : sl.full = true ↔ sl.len ≠ 0 := by simp [full]

/-- A slot that was filled holds exactly the bytes stored. -/
theorem Slot.content_fill {sl : Slot} {bs : List Byte} (hw : Memory.wf sl.bytes = true) (h : bs.length ≤ 16) :
    (sl.fill bs).content = bs := by
  apply List.ext_getElem
  · simp [content, len_fill h]
  · intro k h1 h2
    simp only [content, len_fill h, Memory.getElem_readAll, fill_bytes, Nat.zero_add]
    rw [Memory.read_writeAll bs hw (by omega), if_pos ⟨Nat.zero_le _, by omega⟩]
    simp [h2]

theorem Slot.wf_fill {sl : Slot} {bs : List Byte} (hw : Memory.wf sl.bytes = true) (h : bs.length ≤ 16) :
    Memory.wf (sl.fill bs).bytes = true :=
  Memory.wf_writeAll bs hw (by omega)

end Sys2Proof.Machine
end

