-- ==== Sys2Proof/Laws/Ops.lean ====
section
/-! SUPPORT. What each shared operation can do, said once: operands, fields of the header, the receive registers, the
sampler, the carrier, the packet handlers. -/

namespace Sys2Proof.Machine

/-! ### Operands -/

@[simp] theorem withFace_val (f : Face) (k : Face → Out) : withFace f.val k = k f := by
  simp [withFace, f.isLt]

theorem withFace_of_ge {f : Nat} (h : 6 ≤ f) (k : Face → Out) : withFace f k = .refused (.faceOutOfRange f) := by
  simp [withFace, Nat.not_lt.mpr h]

/-- An operation with a face operand that completes has a face in 0 to 5. -/
theorem withFace_next {f : Nat} {k : Face → Out} {t : State} (h : withFace f k = .next t) :
    ∃ g : Face, f = g.val ∧ k g = .next t := by
  unfold withFace at h
  split at h
  · exact ⟨⟨f, ‹_›⟩, rfl, h⟩
  · cases h

@[simp] theorem withMask_zero (k : Out) : withMask 0 k = .refused .emptyMask := by simp [withMask]

theorem withMask_ne {m : Mask} (h : m ≠ 0) (k : Out) : withMask m k = k := if_neg h

theorem withMask_next {m : Mask} {k : Out} {t : State} (h : withMask m k = .next t) : m ≠ 0 ∧ k = .next t := by
  unfold withMask at h
  split at h
  · cases h
  · exact ⟨‹_›, h⟩

theorem withPhy_lt {v : Byte} (h : v.toNat < 128) (k : Phy → Out) : withPhy v k = k (v.setWidth 7) := by
  simp [withPhy, h]

theorem withPhy_ge {v : Byte} (h : 128 ≤ v.toNat) (k : Phy → Out) : withPhy v k = .refused (.phyValueTooWide v) := by
  simp [withPhy, Nat.not_lt.mpr h]

theorem withPhy_next {v : Byte} {k : Phy → Out} {t : State} (h : withPhy v k = .next t) :
    v.toNat < 128 ∧ k (v.setWidth 7) = .next t := by
  unfold withPhy at h
  split at h
  · exact ⟨‹_›, h⟩
  · cases h

theorem withPacket_next {bytes : List Byte} {k : Packet → Out} {t : State} (h : withPacket bytes k = .next t) :
    ∃ p : Packet, bytes = p.bytes ∧ p.bytes.length ≤ 18 ∧ k p = .next t := by
  cases bytes with
  | nil => cases h
  | cons b bs =>
    simp only [withPacket] at h
    split at h
    · exact ⟨⟨b, bs⟩, rfl, by simpa [Packet.bytes] using ‹_›, h⟩
    · cases h

theorem withPayload_next {bytes : List Byte} {k : Out} {t : State} (h : withPayload bytes k = .next t) :
    k = .next t := by
  cases bytes with
  | nil => exact h
  | cons b bs =>
    simp only [withPayload] at h
    split at h
    · cases h
    · exact h

theorem withPayload_ok {bytes : List Byte} (h1 : bytes.head? ≠ some 0x15) (h2 : bytes.head? ≠ some 0x33) (k : Out) :
    withPayload bytes k = k := by
  cases bytes with
  | nil => rfl
  | cons b bs =>
    simp only [List.head?_cons, ne_eq, Option.some.injEq] at h1 h2
    exact if_neg (not_or.mpr ⟨h1, h2⟩)

/-! ### The header byte -/

@[simp] theorem headerSeq_toByte (h : Header) : headerSeq h.toByte = h.sequence := by
  obtain ⟨a, b, c⟩ := h
  revert a b c; decide

@[simp] theorem headerAck_toByte (h : Header) : headerAck h.toByte = h.ackSequence := by
  obtain ⟨a, b, c⟩ := h
  revert a b c; decide

@[simp] theorem headerPostpone_toByte (h : Header) : headerPostpone h.toByte = h.postponeSleep := by
  obtain ⟨a, b, c⟩ := h
  revert a b c; decide

@[simp] theorem headerNonSpecial_toByte (h : Header) : headerNonSpecial h.toByte = true := by
  obtain ⟨a, b, c⟩ := h
  revert a b c; decide

/-! ### Timers -/

theorem timerSet_le_never (cfg : Config) (now d : Timer) : timerSet cfg now d ≤ neverOf cfg := by
  unfold timerSet
  split
  · exact le_refl _
  · exact le_of_lt (not_le.mp ‹_›)

/-- A usable configuration is one that is not refused. -/
theorem configRefusal_eq_none (cfg : Config) : configRefusal cfg = none ↔ usable cfg := by
  unfold configRefusal usable Config.dropoutDefault
  split_ifs <;> simp <;> omega

/-! ### Receive registers -/

/-- A delivered value carries its presence flag (10 R26). -/
theorem deliveredForm_present (v : Phy) : (deliveredForm v).getLsbD 7 = true := by
  revert v; decide

@[simp] theorem RxFace.raise_lastValue (k : ErrorKind) (r : RxFace) : (r.raise k).lastValue = r.lastValue := rfl
@[simp] theorem RxFace.raise_bitstream (k : ErrorKind) (r : RxFace) : (r.raise k).bitstream = r.bitstream := rfl
@[simp] theorem RxFace.raise_inputBuffer (k : ErrorKind) (r : RxFace) : (r.raise k).inputBuffer = 0 := rfl
@[simp] theorem RxFace.raise_errorBits (k : ErrorKind) (r : RxFace) :
    (r.raise k).errorBits = r.errorBits ||| k.flag := rfl

/-- What a class of samples does to the mailbox of a face: nothing, or a delivery. -/
theorem RxFace.act_lastValue (c : SampleClass) (r : RxFace) :
    (r.act c).lastValue = r.lastValue ∨ ∃ v, (r.act c).lastValue = deliveredForm v := by
  cases c <;> simp only [act, onBit, endFrame, deliver, onSync, onDropout, onNoise] <;> (try split_ifs) <;>
    first | exact .inl trivial | exact .inl rfl | exact .inr ⟨_, rfl⟩

/-- No class of samples writes `bitstream` (10 R23). -/
@[simp] theorem RxFace.act_bitstream (c : SampleClass) (r : RxFace) : (r.act c).bitstream = r.bitstream := by
  cases c <;> simp only [act, onBit, endFrame, deliver, onSync, onDropout, onNoise] <;> (try split_ifs) <;> rfl

/-- A class of samples sets at most one error flag (41 R136). -/
theorem RxFace.act_errorBits (c : SampleClass) (r : RxFace) :
    (r.act c).errorBits = r.errorBits ∨ ∃ k : ErrorKind, (r.act c).errorBits = r.errorBits ||| k.flag := by
  cases c <;> simp only [act, onBit, endFrame, deliver, onSync, onDropout, onNoise] <;> (try split_ifs) <;>
    first | exact .inl trivial | exact .inl rfl | exact .inr ⟨_, rfl⟩

/-- Only a sync takes a searching face out of searching (10 R25). -/
theorem RxFace.act_searching (c : SampleClass) {r : RxFace} (h : r.inputBuffer = 0) :
    (r.act c).inputBuffer = 0 ∨ (c = .sync ∧ (r.act c).inputBuffer = 1) := by
  have hs : r.searching = true := by simp [searching, h]
  cases c <;> simp [act, onBit, onSync, onDropout, onNoise, hs, h]

/-- The mailbox rule of 10 R26 is kept by a sample. -/
theorem RxFace.mailboxOk_step {r : RxFace} (n : Nat) (b : Bool) (h : r.mailboxOk = true) :
    (r.step n b).mailboxOk = true := by
  rcases (r.shift b).act_lastValue (classify n (r.shift b).bitstream) with hv | ⟨v, hv⟩
  · have hs : (r.step n b).lastValue = r.lastValue := hv
    simpa [mailboxOk, present, hs] using h
  · simp [mailboxOk, present, step, hv, deliveredForm_present]

theorem RxFace.mailboxOk_afterPoll {r : RxFace} (h : r.mailboxOk = true) : r.afterPoll.mailboxOk = true := by
  unfold afterPoll
  split
  · rfl
  · exact h

/-! ### The sampler -/

@[simp] theorem sampleAll_rx_get (s : State) (f : Face) :
    (sampleAll s).rx.get f = (s.rx.get f).step s.config.dropoutZeroSamples (s.sample.getLsbD f.val) := by
  simp [sampleAll]

/-- Sample steps write receive registers and take samples; nothing else. -/
theorem sampleTimes_frame : ∀ (n : Nat) (s : State),
    sampleTimes n s = { s with rx := (sampleTimes n s).rx, samples := (sampleTimes n s).samples }
  | 0, _ => rfl
  | n + 1, s => by
    rw [sampleTimes, sampleTimes_frame n (sampleAll s)]
    rfl

theorem mailboxOk_sampleTimes (f : Face) : ∀ (n : Nat) (s : State), (s.rx.get f).mailboxOk = true →
    ((sampleTimes n s).rx.get f).mailboxOk = true
  | 0, _, h => h
  | n + 1, s, h => mailboxOk_sampleTimes f n (sampleAll s) (by simpa using RxFace.mailboxOk_step _ _ h)

/-- Preemption writes receive registers, takes samples and one tick count; nothing else. -/
theorem preempt_frame (s : State) :
    preempt s = { s with rx := (preempt s).rx, samples := (preempt s).samples, ticks := s.ticks.advance } := by
  unfold preempt
  rw [sampleTimes_frame]

theorem mailboxOk_preempt (f : Face) (s : State) (h : (s.rx.get f).mailboxOk = true) :
    ((preempt s).rx.get f).mailboxOk = true :=
  mailboxOk_sampleTimes f _ _ h

/-- With no sample step due, preemption only takes a tick count. -/
theorem preempt_quiet {s : State} (h : s.ticks.peek Config.freeTicks = 0) :
    preempt s = { s with ticks := s.ticks.advance } := by
  simp [preempt, h, sampleTimes]

/-! ### The carrier -/

/-- Polling writes receive registers and the carrier's log and takes samples and tick counts; nothing else. -/
theorem pollTimes_frame (f : Face) (again : List CarrierEvent → Bool) : ∀ (n : Nat) (s : State),
    (pollTimes f again n s).2 =
      { s with
        rx := (pollTimes f again n s).2.rx
        samples := (pollTimes f again n s).2.samples
        ticks := (pollTimes f again n s).2.ticks
        carrierLog := (pollTimes f again n s).2.carrierLog }
  | 0, _ => rfl
  | n + 1, s => by
    rw [pollTimes]
    split
    · simp only
      rw [pollTimes_frame f again n, pollOnce, preempt_frame s]
      rfl
    · rfl

theorem mailboxOk_afterPoll_preempt (f g : Face) (s : State) (h : ∀ g, (s.rx.get g).mailboxOk = true) :
    (((preempt s).onRx f RxFace.afterPoll).rx.get g).mailboxOk = true := by
  simp only [State.onRx_eq, State.setRx_rx, PerFace.get_set]
  split
  · exact RxFace.mailboxOk_afterPoll (mailboxOk_preempt _ _ (h _))
  · exact mailboxOk_preempt _ _ (h _)

theorem mailboxOk_pollTimes (f g : Face) (again : List CarrierEvent → Bool) : ∀ (n : Nat) (s : State),
    (∀ g, (s.rx.get g).mailboxOk = true) → ((pollTimes f again n s).2.rx.get g).mailboxOk = true
  | 0, _, h => h g
  | n + 1, s, h => by
    rw [pollTimes]
    split
    · exact mailboxOk_pollTimes f g again n _ fun g => mailboxOk_afterPoll_preempt f g s h
    · exact h g

/-- `PKT_RX` writes receive registers and the carrier's log and takes samples, tick counts and carrier answers; nothing
else. -/
theorem packetRx_frame (f : Face) (s : State) :
    (packetRx f s).state =
      { s with
        rx := (packetRx f s).state.rx
        samples := (packetRx f s).state.samples
        ticks := (packetRx f s).state.ticks
        carrierLog := (packetRx f s).state.carrierLog
        carrierRx := (packetRx f s).state.carrierRx } := by
  unfold packetRx
  split
  · simp only [State.onRx_eq, State.setRx]
    rw [preempt_frame s]
  · simp only
    rw [pollTimes_frame]

theorem mailboxOk_packetRx (f g : Face) (s : State) (h : ∀ g, (s.rx.get g).mailboxOk = true) :
    ((packetRx f s).state.rx.get g).mailboxOk = true := by
  unfold packetRx
  split
  · exact mailboxOk_afterPoll_preempt f g s h
  · exact mailboxOk_pollTimes f g _ _ _ h

/-- The next frames to be sent are those of the 0th call to come. -/
theorem State.framesAt_zero (s : State) (m : Mask) (p : Packet) :
    s.framesAt 0 s.carrierLog m p = carrierFrames m p s := by
  unfold State.framesAt carrierFrames
  cases s.carrierTx.queue <;> rfl

/-- The hand-over of a packet: under the reference carrier one frame and no change, under any other the carrier's frames
and its own state; nothing else is written (42 R159). -/
theorem packetFrames_ok {m : Mask} {p : Packet} {s t : State} {frs : List Frame}
    (h : packetFrames m p s = .ok (frs, t)) :
    (s.config.carrier = .faceOnly ∧ p.first.toNat < 128 ∧ frs = [⟨m, p.first.setWidth 7⟩] ∧ t = s) ∨
    (s.config.carrier = .uninterpreted ∧
      frs = (carrierFrames m p s).map (fun c => (⟨frameMask m c.part, c.value⟩ : Frame)) ∧
      t = { s with carrierTx := s.carrierTx.advance, carrierLog := .handed m p :: s.carrierLog }) := by
  unfold packetFrames at h
  split at h
  · split at h
    · cases h; exact .inl ⟨‹_›, ‹_›, rfl, rfl⟩
    · cases h
  · cases h; exact .inr ⟨‹_›, rfl, rfl⟩

/-- `PKT_TX` sends the frames of the hand-over and writes nothing else. -/
theorem packetTx_ok {m : Mask} {p : Packet} {s t : State} (h : packetTx m p s = .ok t) :
    ∃ (frs : List Frame) (u : State), packetFrames m p s = .ok (frs, u) ∧
      t = u.transmit (framesTrace s.config frs) := by
  unfold packetTx at h
  split at h
  · cases h; exact ⟨_, _, ‹_›, rfl⟩
  · cases h

/-- A carrier's frame goes to some face of a packet's mask. -/
theorem frameMask_ne_zero {m : Mask} (part : Mask) (h : m ≠ 0) : frameMask m part ≠ 0 := by
  unfold frameMask
  split
  · exact h
  · assumption

theorem frameMask_subset (m part : Mask) : frameMask m part &&& m = frameMask m part := by
  unfold frameMask
  split
  · simp
  · rw [BitVec.and_comm, ← BitVec.and_assoc, BitVec.and_self]

/-- The nine groups of a frame make the frame (42 R155). -/
theorem symbolGroups_flatten (cfg : Config) (fr : Frame) :
    (List.finRange 9).flatMap (symbolGroup cfg fr) = frameTrace cfg fr.mask fr.value := by
  simp [List.finRange, symbolGroup, frameTrace, frameBits]

/-! ### Packet handlers -/

/-- All that `DatagramReceive` can do (44 R207): nothing; or report `postponeSleep`, perhaps empty the outbound slot,
perhaps accept the payload into an empty inbound slot. -/
theorem datagramReceive_cases (f : Face) (h : Byte) (payload : List Byte) (s : State) :
    datagramReceive f h payload s = s ∨
    (headerNonSpecial h = true ∧ payload.length ≤ 16 ∧
      datagramReceive f h payload s = accept f h payload (acknowledge f h (reportPostpone f h s))) := by
  unfold datagramReceive
  split
  · rename_i hc
    simp only [Bool.and_eq_true, decide_eq_true_eq] at hc
    exact .inr ⟨hc.1, hc.2, rfl⟩
  · exact .inl rfl

/-- `DatagramReceive` writes the header, the two slots of its face and the event trace; nothing else. -/
theorem datagramReceive_frame (f : Face) (h : Byte) (payload : List Byte) (s : State) :
    datagramReceive f h payload s =
      { s with
        fc := (datagramReceive f h payload s).fc
        dgIn := (datagramReceive f h payload s).dgIn
        dgOut := (datagramReceive f h payload s).dgOut
        hostEvents := (datagramReceive f h payload s).hostEvents } := by
  unfold datagramReceive accept acknowledge reportPostpone
  split_ifs <;> rfl

/-- What the receive step does with an answer of the carrier writes the face channel, the slots and the event trace. -/
theorem handleReceived_frame (f : Face) (now : Timer) (saw : Bool) (pkt : Option Packet) (s : State) :
    handleReceived f now saw pkt s =
      { s with
        fc := (handleReceived f now saw pkt s).fc
        dgIn := (handleReceived f now saw pkt s).dgIn
        dgOut := (handleReceived f now saw pkt s).dgOut
        hostEvents := (handleReceived f now saw pkt s).hostEvents } := by
  unfold handleReceived handlePacket
  cases pkt with
  | none => cases saw <;> rfl
  | some p =>
    simp only
    split
    · cases saw <;> rfl
    · split
      · cases saw <;> rfl
      · rw [datagramReceive_frame]
        cases saw <;> rfl

/-! ### Operations in parts -/

/-- Polling neither reads nor writes the clock. -/
theorem sampleTimes_clock (c : Feed Nat) : ∀ (n : Nat) (s : State),
    sampleTimes n { s with clock := c } = { sampleTimes n s with clock := c }
  | 0, _ => rfl
  | n + 1, s => sampleTimes_clock c n (sampleAll s)

theorem preempt_clock (c : Feed Nat) (s : State) : preempt { s with clock := c } = { preempt s with clock := c } :=
  sampleTimes_clock c (s.ticks.peek Config.freeTicks) { s with ticks := s.ticks.advance }

theorem pollOnce_clock (c : Feed Nat) (f : Face) (s : State) :
    pollOnce f { s with clock := c } = { pollOnce f s with clock := c } := rfl

theorem pollTimes_clock (c : Feed Nat) (f : Face) (again : List CarrierEvent → Bool) : ∀ (n : Nat) (s : State),
    pollTimes f again n { s with clock := c } =
      ((pollTimes f again n s).1, { (pollTimes f again n s).2 with clock := c })
  | 0, _ => rfl
  | n + 1, s => by
    simp only [pollTimes]
    split
    · rw [preempt_clock, pollOnce_clock, pollTimes_clock c f again n]
    · rfl

theorem packetRx_clock (c : Feed Nat) (f : Face) (s : State) :
    packetRx f { s with clock := c } =
      { packetRx f s with state := { (packetRx f s).state with clock := c } } := by
  unfold packetRx
  cases h : s.config.carrier
  · simp only
    rw [preempt_clock]
    rfl
  · simp only
    have := pollTimes_clock c f (carrierAgain f s) (carrierPolls f s) { s with carrierRx := s.carrierRx.advance }
    simp only at this
    rw [show carrierAgain f { s with clock := c } = carrierAgain f s from rfl,
      show carrierPolls f { s with clock := c } = carrierPolls f s from rfl, this]
    rfl

/-- The clock after a receive poll is the clock before it. -/
theorem packetRx_state_clock (f : Face) (s : State) : (packetRx f s).state.clock = s.clock := by
  rw [packetRx_frame]

/-- The visit of a face and then the part it leaves are the receive step on that face. -/
theorem visitFace_spec (f : Face) (s : State) :
    match (visitFace f s).2 with
    | none => (visitFace f s).1 = receiveFace f s
    | some r => exec r.instr (visitFace f s).1 = .next (receiveFace f s) := by
  unfold visitFace receiveFace
  have hc : packetRx f s.afterNow =
      { packetRx f s with state := { (packetRx f s).state with clock := s.clock.advance } } :=
    packetRx_clock s.clock.advance f s
  have hclk := packetRx_state_clock f s
  have hcfg : (packetRx f s).state.config = s.config := by rw [packetRx_frame]
  rw [hc]
  generalize packetRx f s = r at hclk hcfg ⊢
  obtain ⟨saw, packet, u⟩ := r
  simp only at hclk hcfg ⊢
  rcases packet with _ | ⟨v, rest⟩
  · rfl
  · by_cases hs : isSpecial ⟨v, rest⟩ = true
    · cases saw
      · simp only [partOf, hs]
        rfl
      · have hv := hs
        simp only [isSpecial, Bool.and_eq_true, beq_iff_eq, Bool.or_eq_true] at hv
        have hnow : u.now = s.now := by simp [State.now, hclk, hcfg]
        have hafter : u.afterNow = { u with clock := s.clock.advance } := by simp [State.afterNow, hclk]
        obtain ⟨rfl, rfl | rfl⟩ := hv
        · change exec (.specialSleep f.val) u = _
          simp [exec, execSpecialSleep, hnow, hafter]
        · change exec (.specialWake f.val) u = _
          simp [exec, execSpecialWake, hnow, hafter]
    · rcases rest with _ | ⟨h, payload⟩
      · simp only [partOf, hs]
        rfl
      · simp only [partOf, hs]
        have h1 : isSpecial ⟨v, []⟩ = false := by simp [isSpecial]
        simp only [Bool.not_eq_true] at hs
        simp [ReceivePart.instr, exec, execHeader, handleReceived, handlePacket, hs, h1]

/-- The receive step's visit of a face does all of it, or leaves a part that its row does. -/
theorem receiveVisit_cons (f : Face) (fs : List Face) (s : State) :
    ((visitFace f s).2 = none ∧ receiveVisit (f :: fs) s = { receiveFace f s with mainAt := receiveStepAt fs }) ∨
    ∃ r : ReceivePart, (visitFace f s).2 = some r ∧ exec r.instr (visitFace f s).1 = .next (receiveFace f s) ∧
      receiveVisit (f :: fs) s = { (visitFace f s).1 with mainAt := some (.treating r fs) } := by
  have h := visitFace_spec f s
  have hv : receiveVisit (f :: fs) s =
      match visitFace f s with
      | (t, none) => { t with mainAt := receiveStepAt fs }
      | (t, some r) => { t with mainAt := some (.treating r fs) } := rfl
  rw [hv]
  generalize visitFace f s = x at h ⊢
  obtain ⟨t, r⟩ := x
  cases r with
  | none => exact .inl ⟨rfl, congrArg (fun u : State => { u with mainAt := receiveStepAt fs }) h⟩
  | some r => exact .inr ⟨r, rfl, h, rfl⟩

/-- A transmission ends, or stands again at a call of one of its frames. -/
theorem Transmission.next_ok {x y : Transmission} (h : x.ok = true) (hn : x.next = some y) :
    y.ok = true ∧ y.frames = x.frames := by
  unfold next at hn
  simp only [ok, Bool.and_eq_true, decide_eq_true_eq] at h ⊢
  split_ifs at hn <;> cases hn
  · exact ⟨h, rfl⟩
  · exact ⟨h, rfl⟩
  · exact ⟨⟨‹_›, h.2⟩, rfl⟩

/-- The parts of a sample step change receive registers as `RxFace.step` does: a shift, then the outcome. -/
theorem step_eq_act_shift (n : Nat) (b : Bool) (r : RxFace) :
    r.step n b = (r.shift b).act (classify n (r.shift b).bitstream) := rfl

/-- The outcome of a match is the row that its class selects. -/
theorem exec_outcome (c : SampleClass) (f : Face) (s : State) :
    exec (c.instr f.val) s = .next (s.onRx f (RxFace.act c)) := by
  cases c <;>
    simp only [SampleClass.instr, exec, execSymZero, execSymOneAdj, execSymOneSkew, execSymSync, execRxDropout,
      execRxNoise1011, execRxNoise1101, execRxNoise10101, execRxNone, withFace_val]

end Sys2Proof.Machine
end

