-- ==== Sys2Proof/Tests/Slice0.lean ====
section
/-! SUPPORT. The model's own tests. Expected results are the spec's: its encodings (file 30), its worked examples and the
vectors V<n> of file 95. The last part gives, for every obligation with hypotheses, a state and operands that meet them. -/

namespace Sys2Proof.Tests

open Sys2Proof.Machine

/-! ### Test states -/

/-- Concrete parameters: the defaults of 00 R6, a symbol gap, no stagger, the reference carrier. -/
def testConfig : Config where
  tWindowUs := 512
  tBitGapUs := 600
  tSyncGapUs := 400
  tSymbolGapUs := 900
  dropoutZeroSamples := 8
  probeIntervalMs := 150
  expireWindowMs := 200
  sendStaggerMs := PerFace.ofFn fun _ => 0
  timerBits := 32
  carrier := .faceOnly

def base : State := State.resetWith testConfig

/-- `base` under an uninterpreted carrier that answers as given, each call polling as often as it says. -/
def carried (rx : List CarrierAnswer) (tx : List CarrierSend) : State :=
  { base with config := { testConfig with carrier := .uninterpreted }, carrierRx := ⟨rx, 0⟩, carrierTx := ⟨tx, 0⟩ }

/-- The receive registers of face `f` set. -/
def withRx (f : Face) (bitstream inputBuffer lastValue : Byte) (errorBits : BitVec 4) (s : State) : State :=
  s.setRx f ⟨bitstream, inputBuffer, lastValue, errorBits⟩

/-- The clock readings to come. -/
def atTimes (ts : List Nat) (s : State) : State := { s with clock := ⟨ts, 0⟩ }

/-- No sample step falls before the next `n` polls. -/
def calm (n : Nat) (s : State) : State := { s with ticks := ⟨List.replicate n 0, 0⟩ }

/-- The header fields of face `f` set. -/
def withHeader (f : Face) (seq ack : BitVec 3) (pp : Bool) (s : State) : State :=
  s.onHeader f fun _ => ⟨seq, ack, pp⟩

/-- Does an operation complete in a state that satisfies `p`? -/
def nextIs (o : Out) (p : State → Bool) : Bool :=
  match o with
  | .next t => p t
  | .fault _ => false
  | .refused _ => false

/-- Is an operation refused for the reason `r`? -/
def refusedAs (o : Out) (r : Refusal) : Bool :=
  match o with
  | .next _ => false
  | .fault _ => false
  | .refused q => q == r

/-- Two operations, one after the other. -/
def andThen (o : Out) (k : State → Out) : Out :=
  match o with
  | .next t => k t
  | .fault r => .fault r
  | .refused r => .refused r

/-! ### Well-formedness -/

theorem test_wf_refuses_face_6 : (Instr.irPoll 6).wellFormed = false := by decide
theorem test_wf_accepts_face_5 : (Instr.irPoll 5).wellFormed = true := by decide
theorem test_wf_refuses_pattern_face_6 : (Instr.symZero 6).wellFormed = false := by decide
theorem test_wf_refuses_header_face_6 : (Instr.header 6 0x80 []).wellFormed = false := by decide
theorem test_wf_refuses_empty_mask : (Instr.txsSync 0).wellFormed = false := by decide
theorem test_wf_refuses_phy_128 : (Instr.txByte 1 0x80).wellFormed = false := by decide
theorem test_wf_refuses_empty_packet : (Instr.txPacket 1 []).wellFormed = false := by decide
theorem test_wf_refuses_packet_of_19 : (Instr.txPacket 1 (List.replicate 19 0)).wellFormed = false := by decide
theorem test_wf_refuses_sleep_payload : (Instr.sendDatagram 0 [0x15, 0x00]).wellFormed = false := by decide
theorem test_wf_refuses_wake_payload : (Instr.sendDatagram 0 [0x33]).wellFormed = false := by decide

/-! ### Decoding: words written out from 30 R81, R85, R86, R94, R98 and the operands of 30 R102 -/

theorem test_decode_symZero : decode ⟨.samplePattern, [0b11100100, 0]⟩ = .ok (.symZero 0) := by decide
theorem test_decode_symOneAdj : decode ⟨.samplePattern, [0b01001100, 1]⟩ = .ok (.symOneAdj 1) := by decide
theorem test_decode_symOneSkew : decode ⟨.samplePattern, [0b10010100, 2]⟩ = .ok (.symOneSkew 2) := by decide
theorem test_decode_symSync : decode ⟨.samplePattern, [0b00001111, 3]⟩ = .ok (.symSync 3) := by decide
theorem test_decode_rxDropout : decode ⟨.samplePattern, [0b00000000, 4]⟩ = .ok (.rxDropout 4) := by decide
theorem test_decode_rxNoise1011 : decode ⟨.samplePattern, [0b00001011, 5]⟩ = .ok (.rxNoise1011 5) := by decide
theorem test_decode_rxNoise1101 : decode ⟨.samplePattern, [0b00011101, 0]⟩ = .ok (.rxNoise1101 0) := by decide
theorem test_decode_rxNoise10101 : decode ⟨.samplePattern, [0b00010101, 1]⟩ = .ok (.rxNoise10101 1) := by decide
theorem test_decode_rxNone : decode ⟨.samplePattern, [0b01010100, 2]⟩ = .ok (.rxNone 2) := by decide
theorem test_decode_txsSync : decode ⟨.pulseGroup, [4, 0b100001]⟩ = .ok (.txsSync 0b100001) := by decide
theorem test_decode_txsZero : decode ⟨.pulseGroup, [1, 0b000010]⟩ = .ok (.txsZero 0b000010) := by decide
theorem test_decode_txsOne : decode ⟨.pulseGroup, [2, 0b000010]⟩ = .ok (.txsOne 0b000010) := by decide
/-- 42 R155: 0x05 is `0000101`, its parity bit 1. -/
theorem test_decode_txByte : decode ⟨.frame, [0b00001011, 0b000001]⟩ = .ok (.txByte 0b000001 0x05) := by decide
/-- 30 R87: `v = 0x7F` has parity bit 0. -/
theorem test_decode_txByte_7F : decode ⟨.frame, [0b11111110, 0b000001]⟩ = .ok (.txByte 0b000001 0x7F) := by decide
theorem test_decode_txPacket :
    decode ⟨.call .txPacket, [0b000100, 0x05, 0x80]⟩ = .ok (.txPacket 0b000100 [0x05, 0x80]) := by decide
theorem test_decode_sampleStep : decode ⟨.call .sampleStep, []⟩ = .ok .sampleStep := by decide
theorem test_decode_irPoll : decode ⟨.call .irPoll, [3]⟩ = .ok (.irPoll 3) := by decide
theorem test_decode_irGetData : decode ⟨.call .irGetData, [3]⟩ = .ok (.irGetData 3) := by decide
theorem test_decode_irReadErrors : decode ⟨.call .irReadErrors, [3]⟩ = .ok (.irReadErrors 3) := by decide
theorem test_decode_receiveStep : decode ⟨.call .receiveStep, []⟩ = .ok .receiveStep := by decide
theorem test_decode_sendStep : decode ⟨.call .sendStep, []⟩ = .ok .sendStep := by decide
theorem test_decode_setOutgoingValue :
    decode ⟨.call .setOutgoingValue, [1, 0x05]⟩ = .ok (.setOutgoingValue 1 0x05) := by decide
theorem test_decode_setOutgoingValueAll :
    decode ⟨.call .setOutgoingValueAll, [0x09]⟩ = .ok (.setOutgoingValueAll 0x09) := by decide
theorem test_decode_getIncomingValue : decode ⟨.call .getIncomingValue, [2]⟩ = .ok (.getIncomingValue 2) := by decide
theorem test_decode_didValueChange : decode ⟨.call .didValueChange, [2]⟩ = .ok (.didValueChange 2) := by decide
theorem test_decode_isExpired : decode ⟨.call .isExpired, [2]⟩ = .ok (.isExpired 2) := by decide
theorem test_decode_isAlone : decode ⟨.call .isAlone, []⟩ = .ok .isAlone := by decide
theorem test_decode_sendDatagram :
    decode ⟨.call .sendDatagram, [2, 0x41, 0x42]⟩ = .ok (.sendDatagram 2 [0x41, 0x42]) := by decide
theorem test_decode_isDatagramPending : decode ⟨.call .isDatagramPending, [2]⟩ = .ok (.isDatagramPending 2) := by decide
theorem test_decode_isDatagramReady : decode ⟨.call .isDatagramReady, [2]⟩ = .ok (.isDatagramReady 2) := by decide
theorem test_decode_datagramLength : decode ⟨.call .datagramLength, [2]⟩ = .ok (.datagramLength 2) := by decide
theorem test_decode_getDatagram : decode ⟨.call .getDatagram, [2]⟩ = .ok (.getDatagram 2) := by decide
theorem test_decode_consumeDatagram : decode ⟨.call .consumeDatagram, [2]⟩ = .ok (.consumeDatagram 2) := by decide
theorem test_decode_setPostponeSleep :
    decode ⟨.call .setPostponeSleep, [2, 1]⟩ = .ok (.setPostponeSleep 2 true) := by decide
theorem test_decode_enterSleep : decode ⟨.call .enterSleep, []⟩ = .ok .enterSleep := by decide
theorem test_decode_notifyActivity : decode ⟨.call .notifyActivity, []⟩ = .ok .notifyActivity := by decide
theorem test_decode_header :
    decode ⟨.headerByte, [0b10100010, 1, 0x77]⟩ = .ok (.header 1 0b10100010 [0x77]) := by decide
theorem test_decode_specialSleep : decode ⟨.packet, [0b00010101, 0b00010101, 1]⟩ = .ok (.specialSleep 1) := by decide
theorem test_decode_specialWake : decode ⟨.packet, [0b00110011, 0b00110011, 1]⟩ = .ok (.specialWake 1) := by decide

theorem test_decode_rejects_three_flashes : decode ⟨.pulseGroup, [3, 1]⟩ = .error (.pulseCount 3) := by decide
theorem test_decode_rejects_wide_mask : decode ⟨.pulseGroup, [1, 0x40]⟩ = .error (.maskTooWide 0x40) := by decide
theorem test_decode_rejects_even_parity : decode ⟨.frame, [0b00001010, 1]⟩ = .error (.evenParity 0b00001010) := by decide
/-- V60: `[0x15, 0x33]` is no special packet. -/
theorem test_decode_rejects_mixed_packet :
    decode ⟨.packet, [0x15, 0x33, 0]⟩ = .error (.notSpecial 0x15 0x33) := by decide
theorem test_decode_rejects_long_packet : decode ⟨.packet, [0x15, 0x15, 0x00, 0]⟩ = .error (.operandCount 4) := by decide
theorem test_decode_rejects_bit_2 : decode ⟨.call .setPostponeSleep, [0, 2]⟩ = .error (.notABit 2) := by decide
theorem test_decode_rejects_missing_operand : decode ⟨.call .irPoll, []⟩ = .error (.operandCount 0) := by decide

/-- `opcode_table.json`: the match values of the rows that have one. -/
theorem test_table_words :
    decodeTableWord 8 0x04 = some (.symZero 0) ∧ decodeTableWord 8 0x0C = some (.symOneAdj 0) ∧
    decodeTableWord 8 0x14 = some (.symOneSkew 0) ∧ decodeTableWord 8 0x07 = some (.symSync 0) ∧
    decodeTableWord 8 0x00 = some (.rxDropout 0) ∧ decodeTableWord 8 0x0B = some (.rxNoise1011 0) ∧
    decodeTableWord 8 0x0D = some (.rxNoise1101 0) ∧ decodeTableWord 8 0x15 = some (.rxNoise10101 0) ∧
    decodeTableWord 16 0x1515 = some (.specialSleep 0) ∧ decodeTableWord 16 0x3333 = some (.specialWake 0) := by decide

/-! ### Sample steps on one face: V1 to V19 -/

/-- One row of the table of 95 §2.1: bitstream and inputBuffer before, sample, bitstream, inputBuffer, errors after. -/
def vectorHolds (b i : Byte) (x : Bool) (b' i' : Byte) (e : BitVec 4) : Bool :=
  (RxFace.mk b i 0 0).step 8 x == RxFace.mk b' i' 0 e

theorem test_vectors_V1_to_V10 :
    (vectorHolds 0b00000010 0b00000001 false 0b00000100 0b00000010 0b0000 &&
     vectorHolds 0b11110010 0b00000001 false 0b11100100 0b00000010 0b0000 &&
     vectorHolds 0b00000110 0b00000010 false 0b00001100 0b00000101 0b0000 &&
     vectorHolds 0b00001010 0b00000010 false 0b00010100 0b00000101 0b0000 &&
     vectorHolds 0b00000011 0b00000000 true 0b00000111 0b00000001 0b0000 &&
     vectorHolds 0b00000111 0b00000001 true 0b00001111 0b00000001 0b0000 &&
     vectorHolds 0b00100011 0b01010101 true 0b01000111 0b00000001 0b0000 &&
     vectorHolds 0b00010010 0b00000001 false 0b00100100 0b00000010 0b0000 &&
     vectorHolds 0b00010110 0b00000001 false 0b00101100 0b00000001 0b0000 &&
     vectorHolds 0b00101010 0b00000000 false 0b01010100 0b00000000 0b0000) = true := by decide

theorem test_vectors_V11_to_V19 :
    (vectorHolds 0b00001110 0b00000001 true 0b00011101 0b00000000 0b1000 &&
     vectorHolds 0b00000101 0b00000011 true 0b00001011 0b00000000 0b1000 &&
     vectorHolds 0b00001010 0b00000011 true 0b00010101 0b00000000 0b1000 &&
     vectorHolds 0b00001110 0b00000000 true 0b00011101 0b00000000 0b0000 &&
     vectorHolds 0b10000000 0b00000101 false 0b00000000 0b00000000 0b0100 &&
     vectorHolds 0b01000000 0b00000101 false 0b10000000 0b00000101 0b0000 &&
     vectorHolds 0b10000000 0b00000000 false 0b00000000 0b00000000 0b0000 &&
     vectorHolds 0b00000110 0b00000000 false 0b00001100 0b00000000 0b0000 &&
     vectorHolds 0b00011100 0b00000001 true 0b00111001 0b00000001 0b0000) = true := by decide

/-- V15 and V17 with a dropout length of 3 (00 R6): the third empty window aborts a frame, the second does not. -/
theorem test_dropout_length :
    (RxFace.mk 0b00000100 0b00000101 0 0).step 3 false = ⟨0b00001000, 0x00, 0, 0b0100⟩ ∧
    (RxFace.mk 0b00000001 0b00000101 0 0).step 3 false = ⟨0b00000010, 0b00000101, 0, 0b0000⟩ := by decide

/-- V20, 41 R144: the frame of 0x05, gaps of two windows. -/
theorem test_frame_V20 :
    List.foldl (fun r b => r.step 8 b) (RxFace.mk 0 0 0 0)
      [true, true, true, false, false, true, false, false, true, false, false, true, false, false, true, false, false,
       true, true, false, false, true, false, false, true, true, false, false, true, true, false, false] =
    RxFace.mk 0b11001100 0x00 0x85 0b0000 := by decide +kernel

/-! ### One operation each -/

/-- 40 R111's example: mask `0b001001` shifts a 1 into faces 0 and 3 and a 0 into the others. -/
theorem test_sampleStep :
    nextIs (exec .sampleStep { base with samples := ⟨[0b001001], 0⟩ }) (fun t =>
      (t.rx.get 0).bitstream == 1 && (t.rx.get 3).bitstream == 1 && (t.rx.get 1).bitstream == 0 &&
      (t.rx.get 5).bitstream == 0 && t.samples == ⟨[], 1⟩) = true := by decide

/-- 40 R115, V1. -/
theorem test_symZero :
    nextIs (exec (.symZero 2) (withRx 2 0x04 0b00000001 0 0 base)) (fun t =>
      (t.rx.get 2).inputBuffer == 0b00000010 && (t.rx.get 2).bitstream == 0x04 && t.rx.get 1 == ⟨0, 0, 0, 0⟩) = true := by
  decide

/-- 41 R135's example: the parity of 0x05 must be 1, so a 0-bit ends the frame with an error. -/
theorem test_symZero_bad_parity :
    nextIs (exec (.symZero 2) (withRx 2 0x04 0b10000101 0x92 0 base)) (fun t =>
      t.rx.get 2 == ⟨0x04, 0x00, 0x92, 0b0010⟩) = true := by decide

/-- 41 R134's example, V24: overflow, the newer value wins. -/
theorem test_symOneAdj_overflow :
    nextIs (exec (.symOneAdj 0) (withRx 0 0x0C 0b10010010 0x85 0 base)) (fun t =>
      t.rx.get 0 == ⟨0x0C, 0x00, 0x92, 0b0001⟩) = true := by decide

/-- 41 R132's example. -/
theorem test_symOneSkew :
    nextIs (exec (.symOneSkew 0) (withRx 0 0x14 0b00000101 0 0 base)) (fun t =>
      (t.rx.get 0).inputBuffer == 0b00001011) = true := by decide

/-- V7: a sync in the middle of a frame drops it silently. -/
theorem test_symSync :
    nextIs (exec (.symSync 5) (withRx 5 0b01000111 0b01010101 0 0 base)) (fun t =>
      t.rx.get 5 == ⟨0b01000111, 0x01, 0, 0⟩) = true := by decide

/-- V15. -/
theorem test_rxDropout :
    nextIs (exec (.rxDropout 0) (withRx 0 0 0b00000101 0x85 0 base)) (fun t =>
      t.rx.get 0 == ⟨0, 0, 0x85, 0b0100⟩) = true := by decide

/-- V17. -/
theorem test_rxDropout_searching :
    nextIs (exec (.rxDropout 0) base) (fun t => t.rx.get 0 == ⟨0, 0, 0, 0⟩) = true := by decide

/-- V12. -/
theorem test_rxNoise1011 :
    nextIs (exec (.rxNoise1011 0) (withRx 0 0x0B 0b00000011 0 0b0001 base)) (fun t =>
      t.rx.get 0 == ⟨0x0B, 0, 0, 0b1001⟩) = true := by decide

/-- V11. -/
theorem test_rxNoise1101 :
    nextIs (exec (.rxNoise1101 0) (withRx 0 0x1D 0b00000001 0 0 base)) (fun t =>
      t.rx.get 0 == ⟨0x1D, 0, 0, 0b1000⟩) = true := by decide

/-- V13. -/
theorem test_rxNoise10101 :
    nextIs (exec (.rxNoise10101 0) (withRx 0 0x15 0b00000011 0 0 base)) (fun t =>
      t.rx.get 0 == ⟨0x15, 0, 0, 0b1000⟩) = true := by decide

/-- V16. -/
theorem test_rxNone :
    nextIs (exec (.rxNone 0) (withRx 0 0x80 0b00000101 0 0 base)) (fun t =>
      t.rx.get 0 == ⟨0x80, 0b00000101, 0, 0⟩) = true := by decide

/-- V25: a value, then nothing. -/
theorem test_irPoll :
    nextIs (exec (.irPoll 4) (withRx 4 0 0 0x92 0b0001 base)) (fun t =>
      t.result == some (.poll (some 0x12)) && t.rx.get 4 == ⟨0, 0, 0, 0b0001⟩) = true := by decide

theorem test_irPoll_empty :
    nextIs (exec (.irPoll 4) base) (fun t => t.result == some (.poll none)) = true := by decide

/-- V25: the flags are returned and cleared. -/
theorem test_irReadErrors :
    nextIs (exec (.irReadErrors 4) (withRx 4 0 0 0x92 0b0110 base)) (fun t =>
      t.result == some (.errors 0b0110) && t.rx.get 4 == ⟨0, 0, 0x92, 0⟩) = true := by decide

/-- V29: held while the mailbox is empty. -/
theorem test_irGetData_holds :
    nextIs (exec (.irGetData 1) base) (fun t => t.hold == some 1 && t.result == none) = true := by decide

/-- V29: after a sample step delivered 0x85 the held read returns 5. -/
theorem test_irGetData_returns :
    nextIs (step { withRx 1 0b10000110 0b10000101 0 0 base with
        hold := some 1, ticks := ⟨[1], 0⟩, samples := ⟨[0], 0⟩ }) (fun t =>
      t.hold == none && t.result == some (.value 5) && (t.rx.get 1).lastValue == 0) = true := by decide

/-- 42 R152. -/
theorem test_txsSync :
    nextIs (exec (.txsSync 0b000100) base) (fun t =>
      t.txTrace == [.pulse 0b000100 4 400, .idle 900]) = true := by decide

/-- 42 R153. -/
theorem test_txsZero :
    nextIs (exec (.txsZero 0b000100) base) (fun t => t.txTrace == [.pulse 0b000100 1 600, .idle 900]) = true := by decide

/-- 42 R154. -/
theorem test_txsOne :
    nextIs (exec (.txsOne 0b111111) base) (fun t => t.txTrace == [.pulse 0b111111 2 600, .idle 900]) = true := by decide

/-- The flashes of the groups of a trace, in order. -/
def groups (es : List TxEvent) : List Nat :=
  es.filterMap fun e => match e with | .pulse _ n _ => some n | .idle _ => none

/-- V34. -/
theorem test_txByte :
    nextIs (exec (.txByte 1 0x05) base) (fun t => groups t.txTrace == [4, 1, 1, 1, 1, 2, 1, 2, 2]) = true := by decide

theorem test_txByte_55 :
    nextIs (exec (.txByte 1 0x55) base) (fun t => groups t.txTrace == [4, 2, 1, 2, 1, 2, 1, 2, 2]) = true := by decide

/-- V35. -/
theorem test_transmission_refusals :
    refusedAs (exec (.txByte 0b000001 0x80) base) (.phyValueTooWide 0x80) = true ∧
    refusedAs (exec (.txByte 0b000000 0x05) base) .emptyMask = true ∧
    refusedAs (exec (.txPacket 0b000001 [0x85, 0x80]) base) (.faceValueTooWide 0x85) = true := by decide

/-- V35. -/
theorem test_txPacket :
    nextIs (exec (.txPacket 1 [0x05, 0x80, 0x41]) base) (fun t =>
      groups t.txTrace == [4, 1, 1, 1, 1, 2, 1, 2, 2]) = true := by decide

/-- Under an uninterpreted carrier the bytes sent are the carrier's, and so are the faces of each frame (30 R100). -/
theorem test_txPacket_carried :
    nextIs (exec (.txPacket 0b000011 [0x85, 0x80])
        (carried [] [⟨⟨0x85, [0x80]⟩, [⟨0b000001, 0x00⟩, ⟨0b000010, 0x7F⟩, ⟨0, 0x00⟩]⟩])) (fun t =>
      groups t.txTrace == [4, 1, 1, 1, 1, 1, 1, 1, 2, 4, 2, 2, 2, 2, 2, 2, 2, 1, 4, 1, 1, 1, 1, 1, 1, 1, 2] &&
      t.txTrace[0]? == some (.pulse 0b000001 4 400) && t.txTrace[18]? == some (.pulse 0b000010 4 400) &&
      t.txTrace[36]? == some (.pulse 0b000011 4 400) &&
      t.carrierLog == [.handed 0b000011 ⟨0x85, [0x80]⟩]) = true := by decide

/-- V40 to V44. -/
theorem test_timerSet :
    timerSet testConfig 1000 150 = 1150 ∧ timerSet testConfig 1000 0 = 1000 ∧
    timerSet testConfig 0xFFFFFFF0 150 = 0xFFFFFFFF ∧ timerSet testConfig 0xFFFFFF69 150 = 0xFFFFFFFF ∧
    timerSet testConfig 0xFFFFFF68 150 = 0xFFFFFFFE := by decide

/-- V45 to V48. -/
theorem test_elapsed :
    elapsed testConfig 1150 1149 = false ∧ elapsed testConfig 1150 1150 = true ∧ elapsed testConfig 1150 1151 = true ∧
    elapsed testConfig 0 0 = true ∧ elapsed testConfig 0xFFFFFFFF 0xFFFFFFFF = false ∧
    elapsed testConfig 5200 100 = false := by decide

/-- V50. -/
theorem test_receiveStep :
    nextIs (exec .receiveStep (calm 6 (atTimes (List.replicate 6 5000) (withRx 3 0 0 0x85 0 base)))) (fun t =>
      (t.rx.get 3).lastValue == 0 && (t.fc.get 3).inValue == 0x05 && (t.fc.get 3).expireTimer == 5200 &&
      (t.fc.get 3).sendTimer == 5000 && (t.fc.get 2).expireTimer == 0 && t.hostEvents == []) = true := by decide

/-- V60: `[0x15, 0x33]` is a normal packet whose second byte is a header with `nonSpecial = 0`. -/
theorem test_receiveStep_not_special :
    nextIs (.next (receiveFace 1 (calm 2 (atTimes [700]
        (withRx 1 0 0 0x95 0 (carried [⟨2, some ⟨0x15, [0x33]⟩⟩] []))))) : Out) (fun t =>
      (t.fc.get 1).inValue == 0x15 && (t.fc.get 1).sendTimer == 700 && (t.fc.get 1).expireTimer == 900 &&
      t.hostEvents == []) = true := by decide

/-- V51: every face due, six frames of 0x00. -/
theorem test_sendStep :
    nextIs (exec .sendStep (atTimes (List.replicate 6 5000) base)) (fun t =>
      groups (t.txTrace.take 18) == [4, 1, 1, 1, 1, 1, 1, 1, 2] && t.txTrace.length == 108 &&
      (t.fc.get 0).sendTimer == 5150 && (t.fc.get 5).sendTimer == 5150 &&
      t.txTrace[90]? == some (.pulse 0b100000 4 400)) = true := by decide

/-- V52: not due, nothing sent. -/
theorem test_sendStep_not_due :
    nextIs (exec .sendStep (atTimes (List.replicate 6 5149)
        { base with fc := PerFace.ofFn fun f => { base.fc.get f with sendTimer := 5150 } })) (fun t =>
      t.txTrace == [] && (t.fc.get 4).sendTimer == 5150) = true := by decide

/-- 95 §2.5, the lines after the table. -/
theorem test_setOutgoingValue :
    nextIs (exec (.setOutgoingValue 0 5) base) (fun t =>
      (outPacket 0 t).bytes == [0x05, 0b10000000] && (t.fc.get 1).outValue == 0) = true := by decide

theorem test_setOutgoingValue_face_6 : refusedAs (exec (.setOutgoingValue 6 1) base) (.faceOutOfRange 6) = true := by
  decide

theorem test_setOutgoingValueAll :
    nextIs (exec (.setOutgoingValueAll 9) base) (fun t => allFaces.all fun f => (t.fc.get f).outValue == 9) = true := by
  decide

/-- V57. -/
theorem test_getIncomingValue :
    nextIs (exec (.getIncomingValue 2) base) (fun t => t.result == some (.byte 0)) = true := by decide

/-- V54: true, then false. -/
theorem test_didValueChange :
    nextIs (exec (.didValueChange 3) (base.onFc 3 fun c => { c with inValue := 5 })) (fun t =>
      t.result == some (.flag true) && (t.fc.get 3).shadow == 5 &&
      nextIs (exec (.didValueChange 3) t) fun u => u.result == some (.flag false)) = true := by decide

/-- V56. -/
theorem test_isExpired :
    nextIs (exec (.isExpired 3) (atTimes [5199, 5200] (base.onFc 3 fun c => { c with expireTimer := 5200 }))) (fun t =>
      t.result == some (.flag false) &&
      nextIs (exec (.isExpired 3) t) fun u => u.result == some (.flag true)) = true := by decide

/-- V56. -/
theorem test_isAlone :
    nextIs (exec .isAlone (atTimes [5199, 5200] (base.onFc 3 fun c => { c with expireTimer := 5200 }))) (fun t =>
      t.result == some (.flag false) &&
      nextIs (exec .isAlone t) fun u => u.result == some (.flag true)) = true := by decide

/-- V61: armed, then one is already pending. -/
theorem test_sendDatagram :
    nextIs (exec (.sendDatagram 2 [0x41, 0x42]) (withHeader 2 3 0 false base)) (fun t =>
      t.result == some (.flag true) && (t.dgOut.get 2).content == [0x41, 0x42] &&
      (t.fc.get 2).header.toByte == 0b10000100 &&
      nextIs (exec (.sendDatagram 2 [0x43]) t) fun u => u == { t with result := some (.flag false) }) = true := by decide

/-- V62, V63, V64: 7 goes to 0; 17 bytes and no byte fail; the reserved constants are refused. -/
theorem test_sendDatagram_corners :
    nextIs (exec (.sendDatagram 2 [0x01]) (withHeader 2 7 0 false base)) (fun t =>
      (t.fc.get 2).header.toByte == 0b10000000) = true ∧
    nextIs (exec (.sendDatagram 2 (List.replicate 17 1)) base) (fun t => t.result == some (.flag false)) = true ∧
    nextIs (exec (.sendDatagram 2 []) base) (fun t => t.result == some (.flag false)) = true ∧
    refusedAs (exec (.sendDatagram 2 [0x15, 0x00]) base) (.reservedPayload 0x15) = true ∧
    refusedAs (exec (.sendDatagram 2 [0x33]) base) (.reservedPayload 0x33) = true := by decide

/-- An outbound slot of face 2 with three bytes. -/
def pending : State := base.setDgOut 2 (Slot.reset.fill [0x10, 0x20, 0x30])

/-- An inbound slot of face 2 with three bytes. -/
def ready : State := base.setDgIn 2 (Slot.reset.fill [0x10, 0x20, 0x30])

theorem test_isDatagramPending :
    nextIs (exec (.isDatagramPending 2) pending) (fun t => t.result == some (.flag true)) = true ∧
    nextIs (exec (.isDatagramPending 1) pending) (fun t => t.result == some (.flag false)) = true := by decide

/-- V73. -/
theorem test_isDatagramReady :
    nextIs (exec (.isDatagramReady 2) ready) (fun t => t.result == some (.flag true)) = true := by decide

/-- V73. -/
theorem test_datagramLength :
    nextIs (exec (.datagramLength 2) ready) (fun t => t.result == some (.length 3)) = true := by decide

/-- V73. -/
theorem test_getDatagram :
    nextIs (exec (.getDatagram 2) ready) (fun t => t.result == some (.bytes [0x10, 0x20, 0x30])) = true := by decide

/-- V73: freed, and then there is nothing to read. -/
theorem test_consumeDatagram :
    nextIs (exec (.consumeDatagram 2) ready) (fun t =>
      (t.dgIn.get 2).len == 0 &&
      nextIs (exec (.getDatagram 2) t) fun u => u.result == some (.bytes [])) = true := by decide

/-- V72. -/
theorem test_setPostponeSleep :
    nextIs (exec (.setPostponeSleep 2 true) (withHeader 2 1 2 false base)) (fun t =>
      (outPacket 2 t).rest == [0b11010001]) = true := by decide

/-- V65: `ack = 4` empties the outbound slot. -/
theorem test_header_acknowledges :
    nextIs (exec (.header 2 0b10100010 []) (withHeader 2 4 0 false pending)) (fun t =>
      (t.dgOut.get 2).len == 0 && (t.dgIn.get 2).len == 0 && (t.fc.get 2).header.ackSequence == 0) = true := by decide

/-- V67, then V66: accepted, and with the slot full the next number is not. -/
theorem test_header_accepts :
    nextIs (exec (.header 2 0b10000010 [0x77]) (withHeader 2 0 1 false base)) (fun t =>
      (t.dgIn.get 2).content == [0x77] && (t.fc.get 2).header.ackSequence == 2 &&
      nextIs (exec (.header 2 0b10000011 [0x78]) t) fun u => u.dgIn == t.dgIn && u.fc == t.fc) = true := by decide

/-- V58. -/
theorem test_specialSleep :
    nextIs (exec (.specialSleep 1) (atTimes [700] base)) (fun t =>
      (t.fc.get 1).expireTimer == 900 && (t.fc.get 1).inValue == 0 && (t.fc.get 1).sendTimer == 0 &&
      t.hostEvents == [.specialPacket 1 0x15]) = true := by decide

/-- V59. -/
theorem test_specialWake :
    nextIs (exec (.specialWake 1) (atTimes [700] base)) (fun t =>
      (t.fc.get 1).expireTimer == 900 && t.hostEvents == [.specialPacket 1 0x33]) = true := by decide

/-- 00 R5. -/
theorem test_enterSleep : refusedAs (exec .enterSleep base) .enterSleepOutOfScope = true := by decide

/-- 00 R5. -/
theorem test_notifyActivity : refusedAs (exec .notifyActivity base) .notifyActivityOutOfScope = true := by decide

/-- An agenda of one action: the step runs it and takes it off. -/
theorem test_step_runs_the_agenda :
    nextIs (step { base with agenda := [.run ⟨.call .setOutgoingValue, [4, 0x0A]⟩] }) (fun t =>
      (t.fc.get 4).outValue == 0x0A && t.agenda == []) = true := by decide

/-- A dropout length that an 8-bit register cannot measure is refused. -/
theorem test_step_refuses_dropout_9 :
    refusedAs (step (State.resetWith { testConfig with dropoutZeroSamples := 9 })) (.dropoutNotMeasurable 9) = true := by
  decide

/-- 10 R21, 60 R242: parts by themselves are no operations, in whole or in parts. -/
theorem test_parts_are_refused :
    refusedAs (step { base with agenda := [.run ⟨.pulseGroup, [2, 1]⟩] }) (.partOfAnother (.txsOne 1)) = true ∧
    refusedAs (step { base with agenda := [.inParts ⟨.headerByte, [0x80, 1]⟩] })
      (.partOfAnother (.header 1 0x80 [])) = true ∧
    refusedAs (step { base with agenda := [.run ⟨.samplePattern, [0x07, 1]⟩] }) (.partOfAnother (.symSync 1)) = true := by
  decide

/-- A `RECEIVE_STEP` in parts up to the header of V65 (`ack = 4`), which empties the outbound slot in a step of its own. -/
theorem test_receive_step_in_parts :
    nextIs (Host.Core.run core 3 { calm 1 (atTimes [700, 700, 700] { pending with
        config := { testConfig with carrier := .uninterpreted }
        carrierRx := ⟨[⟨0, none⟩, ⟨1, some ⟨0x05, [0b10100010]⟩⟩], 0⟩ }) with
          fc := PerFace.ofFn fun _ => { base.fc.get 0 with header := ⟨4, 0, false⟩ }
          mainAt := some (.receiveStep [1, 2]) }) (fun t => (t.dgOut.get 2).len == 0 && (t.fc.get 2).inValue == 0x05 &&
        t.mainAt == none) = true := by decide

/-- 42 R158: a sample step between the `Pulse` and the `Idle` of the sync of a `TX_BYTE`. -/
theorem test_sample_step_inside_a_symbol :
    nextIs (Host.Core.run core 4 { base with
        agenda := [.inParts ⟨.frame, [0b00001011, 1]⟩, .proceed, .run ⟨.call .sampleStep, []⟩, .proceed]
        samples := ⟨[0b000001], 0⟩ }) (fun t =>
      t.txTrace == [.pulse 1 4 400, .idle 900] && (t.rx.get 0).bitstream == 1 && t.agenda == [] &&
      t.mainAt == some (.sending ⟨[⟨1, 0x05⟩], 0, 1, false⟩ none)) = true := by decide

/-- 42 R158: from the last call of the first frame of a packet to the first of the second. -/
theorem test_packet_position :
    nextIs (step { base with mainAt := some (.sending ⟨[⟨1, 0x05⟩, ⟨2, 0x00⟩], 0, 8, true⟩ none) }) (fun t =>
      t.txTrace == [.idle 900] && t.mainAt == some (.sending ⟨[⟨1, 0x05⟩, ⟨2, 0x00⟩], 1, 0, false⟩ none)) = true := by
  decide

/-- V7 in parts: the shift of face 0, then the sync that its register decodes to. -/
theorem test_sample_step_in_parts :
    nextIs (Host.Core.run core 3 { withRx 0 0b00100011 0b01010101 0 0 base with
        agenda := [.inParts ⟨.call .sampleStep, []⟩], samples := ⟨[0b000001], 0⟩ }) (fun t =>
      t.rx.get 0 == ⟨0b01000111, 0x01, 0, 0⟩ && t.samplerAt == some (.shifting 1 [1, 2, 3, 4, 5])) = true := by decide

/-- The word `0x07` in the register of face 0, in the middle of a sample step, is a sync on face 0. -/
theorem test_withFetchWord :
    nextIs (step (State.reset.withFetchWord 8 0x07)) (fun t => (t.rx.get 0).inputBuffer == 0x01) = true := by decide

/-! ### Witnesses: for each obligation with hypotheses, operands and a state that meet them -/

/-- An operation that completes, as a statement. -/
theorem next_of_nextIs {o : Out} {p : State → Bool} (h : nextIs o p = true) : ∃ t, o = .next t ∧ p t = true := by
  cases o with
  | next t => exact ⟨t, rfl, h⟩
  | fault r => cases r
  | refused r => cases h

/-- A face in the middle of a frame with five data bits, `IR_POLL` waiting. -/
def midFrame : State := withRx 0 0x04 0b00100101 0x85 0 base

theorem witness_StepKeepsTheInvariant : ∃ s t : State, s.inv = true ∧ step s = .next t := by
  obtain ⟨t, ht, -⟩ := next_of_nextIs (o := step { base with agenda := [.run ⟨.call .sendDatagram, [2, 0x41]⟩] })
    (p := fun t => (t.dgOut.get 2).len == 1) (by decide)
  exact ⟨_, t, by decide, ht⟩

theorem witness_StepKeepsTheConfiguration : ∃ s t : State, step s = .next t := by
  obtain ⟨t, ht, -⟩ := next_of_nextIs (o := step { base with agenda := [.run ⟨.call .irPoll, [5]⟩] })
    (p := fun t => t.agenda == []) (by decide)
  exact ⟨_, t, ht⟩

theorem witness_TracesOnlyGrow :
    ∃ s t : State, step s = .next t ∧ t.txTrace ≠ s.txTrace := by
  obtain ⟨t, ht, hp⟩ := next_of_nextIs (o := step { base with agenda := [.run ⟨.frame, [0b00001011, 1]⟩] })
    (p := fun t => decide (t.txTrace ≠ [])) (by decide)
  exact ⟨_, t, ht, of_decide_eq_true hp⟩

/-- A report: the special packet of the table as the part of a receive step that it is. -/
theorem witness_TracesOnlyGrow_reports :
    nextIs (step (base.withFetchWord 16 0x1515)) (fun t => t.hostEvents == [.specialPacket 0 0x15]) = true := by decide

theorem witness_DecodeOfEncodeIsIdentity :
    (Instr.txByte 0b111111 0x7F).wellFormed = true ∧ (Instr.irPoll 0).wellFormed = true ∧
    (Instr.irPoll 5).wellFormed = true ∧ (Instr.txPacket 1 (List.replicate 18 0xFF)).wellFormed = true ∧
    (Instr.sendDatagram 5 []).wellFormed = true := by decide

/-- The longest and the shortest dropout length that can be measured. -/
theorem usable_testConfig : usable testConfig ∧ usable { testConfig with dropoutZeroSamples := 1 } := by
  unfold usable; decide

theorem usable_default : usable Config.default := by
  unfold usable; decide

theorem witness_StepRunsTheDecodedAction :
    (∃ (s : State) (c : Code) (rest : List Action) (i : Instr), usable s.config ∧ s.ready = true ∧
      s.agenda = .run c :: rest ∧ decode c = .ok i ∧ partOnly i = false) ∧
    (∃ s : State, usable s.config ∧ s.samplerAt = some (.matching 0b000001 5 [])) ∧
    (∃ s : State, usable s.config ∧ s.samplerAt = none ∧ s.hold = none ∧
      s.mainAt = some (.treating (.header 5 0x80 []) []) ∧ s.agenda = []) ∧
    (∃ (s : State) (nbits w : Nat) (i : Instr), usable s.config ∧ s.config.dropoutZeroSamples = 8 ∧ nbits ≤ 8 ∧
      decodeTableWord nbits w = some i) ∧
    (∃ (s : State) (nbits w : Nat) (i : Instr), usable s.config ∧ 8 < nbits ∧
      decodeTableWord nbits w = some i) :=
  ⟨⟨{ base with agenda := [.run ⟨.call .irPoll, [5]⟩] }, ⟨.call .irPoll, [5]⟩, _, .irPoll 5, usable_testConfig.1, by decide,
    rfl, by decide, rfl⟩,
   ⟨{ base with samplerAt := some (.matching 0b000001 5 []) }, usable_testConfig.1, rfl⟩,
   ⟨{ base with mainAt := some (.treating (.header 5 0x80 []) []) }, usable_testConfig.1, rfl, rfl, rfl, rfl⟩,
   ⟨State.reset, 8, 0x07, .symSync 0, usable_default, rfl, by decide, by decide⟩,
   ⟨State.reset, 16, 0x3333, .specialWake 0, usable_default, by decide, by decide⟩⟩

/-- A code for each kind of part; the last call of a transmission and one before; a face to be shifted. -/
theorem witness_StepWithoutADecodedAction :
    (∃ s : State, s.config.expireWindowMs ≤ s.config.probeIntervalMs) ∧
    (∃ s : State, s.config.probeIntervalMs < s.config.expireWindowMs ∧ s.config.dropoutZeroSamples = 0) ∧
    (∃ s : State, s.config.probeIntervalMs < s.config.expireWindowMs ∧ 8 < s.config.dropoutZeroSamples) ∧
    (∃ (s : State) (c : Code) (a : Action) (rest : List Action) (e : Reject), usable s.config ∧ s.ready = true ∧
      s.agenda = a :: rest ∧ (a = .run c ∨ a = .inParts c) ∧ decode c = .error e) ∧
    (∀ c ∈ [Code.mk .samplePattern [0x04, 5], ⟨.samplePattern, [0x00, 5]⟩, ⟨.pulseGroup, [4, 1]⟩, ⟨.pulseGroup, [1, 1]⟩,
        ⟨.pulseGroup, [2, 1]⟩, ⟨.headerByte, [0x80, 5]⟩, ⟨.packet, [0x15, 0x15, 5]⟩, ⟨.packet, [0x33, 0x33, 5]⟩],
      ∃ i : Instr, decode c = .ok i ∧
        ((samplerOp i = true ∧ i ≠ .sampleStep) ∨ (∃ m : Mask, i = .txsSync m ∨ i = .txsZero m ∨ i = .txsOne m) ∨
          (∃ f h payload, i = .header f h payload) ∨ (∃ f : Nat, i = .specialSleep f ∨ i = .specialWake f))) ∧
    (∃ s : State, usable s.config ∧ s.ready = true ∧ s.agenda = []) ∧
    (∃ (s t : State) (p : MainPosition), usable s.config ∧ s.samplerAt = none ∧ s.hold = none ∧ s.mainAt = some p ∧
      s.agenda = [.run (encode (.irPoll 0))] ∧ step { s with agenda := [] } = .next t ∧
      ∀ c : Code, Action.run (encode (.irPoll 0)) = .run c ∨ Action.run (encode (.irPoll 0)) = .inParts c →
        decode c ≠ .ok .sampleStep) ∧
    (∃ (s : State) (x : Transmission) (fr : Frame), usable s.config ∧ s.samplerAt = none ∧ s.hold = none ∧ s.agenda = [] ∧
      s.mainAt = some (.sending x none) ∧ x.frames[x.byte]? = some fr ∧
      (x.idle = true ∧ x.symbol = 8 ∧ x.frames.length ≤ x.byte + 1)) ∧
    (∃ (s : State) (x : Transmission) (fr : Frame), usable s.config ∧ s.samplerAt = none ∧ s.hold = none ∧ s.agenda = [] ∧
      s.mainAt = some (.sending x none) ∧ x.frames[x.byte]? = some fr ∧
      ¬(x.idle = true ∧ x.symbol = 8 ∧ x.frames.length ≤ x.byte + 1)) ∧
    (∃ s : State, usable s.config ∧ s.samplerAt = some (.shifting 0 [5])) :=
  ⟨⟨State.resetWith { testConfig with probeIntervalMs := 200 }, by decide⟩,
   ⟨State.resetWith { testConfig with dropoutZeroSamples := 0 }, by decide⟩,
   ⟨State.resetWith { testConfig with dropoutZeroSamples := 9 }, by decide⟩,
   ⟨{ base with agenda := [.run ⟨.pulseGroup, [3, 1]⟩] }, ⟨.pulseGroup, [3, 1]⟩, _, _, .pulseCount 3, usable_testConfig.1,
    by decide, rfl, .inl rfl, by decide⟩,
   by
    intro c hc
    fin_cases hc
    · exact ⟨.symZero 5, by decide, .inl (by decide)⟩
    · exact ⟨.rxDropout 5, by decide, .inl (by decide)⟩
    · exact ⟨.txsSync 1, by decide, .inr (.inl ⟨_, .inl rfl⟩)⟩
    · exact ⟨.txsZero 1, by decide, .inr (.inl ⟨_, .inr (.inl rfl)⟩)⟩
    · exact ⟨.txsOne 1, by decide, .inr (.inl ⟨_, .inr (.inr rfl)⟩)⟩
    · exact ⟨.header 5 0x80 [], by decide, .inr (.inr (.inl ⟨_, _, _, rfl⟩))⟩
    · exact ⟨.specialSleep 5, by decide, .inr (.inr (.inr ⟨_, .inl rfl⟩))⟩
    · exact ⟨.specialWake 5, by decide, .inr (.inr (.inr ⟨_, .inr rfl⟩))⟩,
   ⟨base, usable_testConfig.1, by decide, rfl⟩,
   ⟨{ base with mainAt := some (.receiveStep []), agenda := [.run (encode (.irPoll 0))] }, base, .receiveStep [],
    usable_testConfig.1, rfl, rfl, rfl, rfl, rfl, by
      intro c hc
      rcases hc with hc | hc <;> cases hc
      decide⟩,
   ⟨{ base with mainAt := some (.sending ⟨[⟨1, 0x05⟩], 0, 8, true⟩ none) }, ⟨[⟨1, 0x05⟩], 0, 8, true⟩, ⟨1, 0x05⟩,
    usable_testConfig.1, rfl, rfl, rfl, rfl, rfl, by decide⟩,
   ⟨{ base with mainAt := some (.sending ⟨[⟨1, 0x05⟩], 0, 8, false⟩ none) }, ⟨[⟨1, 0x05⟩], 0, 8, false⟩, ⟨1, 0x05⟩,
    usable_testConfig.1, rfl, rfl, rfl, rfl, rfl, by decide⟩,
   ⟨{ base with samplerAt := some (.shifting 0 [5]) }, usable_testConfig.1, rfl⟩⟩

/-- A word for each clause of the rejections, at the boundary where there is one. -/
theorem witness_SpecWordsDecode :
    ((0x3F : Byte).toNat < 64 ∧ (3 : Byte) ≠ 1 ∧ (3 : Byte) ≠ 2 ∧ (3 : Byte) ≠ 4) ∧
    (popcount ((0b00001010 : Byte).extractLsb' 1 7) + ((0b00001010 : Byte).getLsbD 0).toNat) % 2 = 0 ∧
    64 ≤ (0x40 : Byte).toNat ∧
    ¬((0x15 : Byte) = 0x33 ∧ ((0x15 : Byte) = 0x15 ∨ (0x15 : Byte) = 0x33)) ∧
    ¬((0x14 : Byte) = 0x14 ∧ ((0x14 : Byte) = 0x15 ∨ (0x14 : Byte) = 0x33)) ∧
    ((2 : Byte) ≠ 0 ∧ (2 : Byte) ≠ 1) ∧
    ([0x15, 0x15, 0x00, 0x00] : List Byte).length ≠ 3 ∧ ([] : List Byte).length ≠ 1 ∧
    ([0x80] : List Byte).length < 2 := by decide

theorem witness_SampleWordsAreClassified : 1 ≤ 1 ∧ 1 ≤ 8 ∧ 8 ≤ 8 := by decide

theorem witness_DropoutAndNoiseAbortTheFrame : (midFrame.rx.get 0).inputBuffer ≠ 0x00 := by decide

theorem witness_NoSymbolChangesNothing : (base.rx.get 0).inputBuffer = 0x00 := by decide

theorem witness_BitSymbolWhileSearchingIsIgnored : (base.rx.get 5).inputBuffer = 0x00 := by decide

theorem witness_BitSymbolShiftsInADataBit :
    ((withRx 0 0 0b00000001 0 0 base).rx.get 0).inputBuffer ≠ 0x00 ∧
    ((withRx 0 0 0b01111111 0 0 base).rx.get 0).inputBuffer ≠ 0x00 ∧
    ((withRx 0 0 0b00000001 0 0 base).rx.get 0).inputBuffer.getLsbD 7 = false ∧
    ((withRx 0 0 0b01111111 0 0 base).rx.get 0).inputBuffer.getLsbD 7 = false := by decide

/-- A frame of 0x7F wants a 0-bit, a frame of 0x00 a 1-bit (30 R87). -/
theorem witness_GoodParityDeliversTheValue :
    ((withRx 0 0 0xFF 0 0 base).rx.get 0).inputBuffer.getLsbD 7 = true ∧
    (popcount (((withRx 0 0 0xFF 0 0 base).rx.get 0).inputBuffer.setWidth 7) + 0) % 2 = 1 ∧
    ((withRx 0 0 0x80 0x92 0 base).rx.get 0).inputBuffer.getLsbD 7 = true ∧
    (popcount (((withRx 0 0 0x80 0x92 0 base).rx.get 0).inputBuffer.setWidth 7) + 1) % 2 = 1 := by decide

theorem witness_BadParityDiscardsTheFrame :
    ((withRx 0 0 0xFF 0 0 base).rx.get 0).inputBuffer.getLsbD 7 = true ∧
    (popcount (((withRx 0 0 0xFF 0 0 base).rx.get 0).inputBuffer.setWidth 7) + 1) % 2 = 0 ∧
    ((withRx 0 0 0x80 0x92 0 base).rx.get 0).inputBuffer.getLsbD 7 = true ∧
    (popcount (((withRx 0 0 0x80 0x92 0 base).rx.get 0).inputBuffer.setWidth 7) + 0) % 2 = 0 := by decide

/-- V15 as a whole sample step: the eighth empty window. -/
theorem witness_SampleStepRaisesAtMostOneError :
    ∃ t : State, exec .sampleStep { withRx 0 0x80 0b00000101 0 0 base with samples := ⟨[0], 0⟩ } = .next t ∧
      (t.rx.get 0).errorBits = 0b0100 := by
  obtain ⟨t, ht, hp⟩ := next_of_nextIs
    (o := exec .sampleStep { withRx 0 0x80 0b00000101 0 0 base with samples := ⟨[0], 0⟩ })
    (p := fun t => (t.rx.get 0).errorBits == 0b0100) (by decide)
  exact ⟨t, ht, beq_iff_eq.mp hp⟩

theorem witness_OnlyASyncLeavesSearching :
    (∃ (s t : State), exec (.symSync 0) s = .next t ∧ (s.rx.get 0).inputBuffer = 0x00 ∧
      (t.rx.get 0).inputBuffer ≠ 0x00) ∧
    (∃ (s t : State), exec .sampleStep s = .next t ∧ (s.rx.get 5).inputBuffer = 0x00 ∧
      (t.rx.get 5).inputBuffer ≠ 0x00) ∧
    (∃ (s t : State), exec .receiveStep s = .next t ∧ (s.rx.get 5).inputBuffer = 0x00 ∧
      (t.rx.get 5).inputBuffer ≠ 0x00) := by
  refine ⟨?_, ?_, ?_⟩
  · obtain ⟨t, ht, hp⟩ := next_of_nextIs (o := exec (.symSync 0) base)
      (p := fun t => decide ((t.rx.get 0).inputBuffer ≠ 0x00)) (by decide)
    exact ⟨base, t, ht, by decide, of_decide_eq_true hp⟩
  · obtain ⟨t, ht, hp⟩ := next_of_nextIs
      (o := exec .sampleStep { withRx 5 0b00000011 0 0 0 base with samples := ⟨[0b100000], 0⟩ })
      (p := fun t => decide ((t.rx.get 5).inputBuffer ≠ 0x00)) (by decide)
    exact ⟨_, t, ht, by decide, of_decide_eq_true hp⟩
  · obtain ⟨t, ht, hp⟩ := next_of_nextIs
      (o := exec .receiveStep { atTimes [0, 0, 0, 0, 0, 0] (withRx 5 0b00000011 0 0 0 base) with
        ticks := ⟨[0, 1, 0, 0, 0, 0], 0⟩, samples := ⟨[0b100000], 0⟩ })
      (p := fun t => decide ((t.rx.get 5).inputBuffer ≠ 0x00)) (by decide)
    exact ⟨_, t, ht, by decide, of_decide_eq_true hp⟩

/-- An image chosen element by element. -/
theorem isImage_of_choices : ∀ (es : List TxEvent) (ws : List (List Bool)), es.length = ws.length →
    (∀ p ∈ es.zip ws, p.2 ∈ eventImages p.1) → IsImage es ws.flatten
  | [], [], _, _ => rfl
  | e :: es, w :: ws, hl, h =>
    ⟨w, ws.flatten, h (e, w) List.mem_cons_self, rfl,
      isImage_of_choices es ws (Nat.succ.inj hl) fun p hp => h p (List.mem_cons_of_mem _ hp)⟩

/-- The images chosen in V20 for the frame of 0x05: sync `111`, 1-bits `11`, all gaps two windows. -/
def choicesV20 : List (List Bool) :=
  [[true, true, true], [false, false], [true], [false, false], [true], [false, false], [true], [false, false],
   [true], [false, false], [true, true], [false, false], [true], [false, false], [true, true], [false, false],
   [true, true], [false, false]]

/-- An idle machine about to see these samples on face 3. -/
def seeing (w : List Bool) : State := { base with samples := ⟨w.map fun b => if b then 0b001000 else 0, 0⟩ }

theorem isSilence_replicate (n : Nat) : IsSilence (List.replicate n false) := fun _ h => (List.mem_replicate.mp h).2

/-- V20 with silence behind it; two frames with silence around them; no frame at all. -/
theorem witness_FrameRoundTripThroughTheMachine :
    usable testConfig ∧ testConfig.dropoutZeroSamples = 8 ∧
    (let w := choicesV20.flatten
     let c := List.replicate 9 false
     IsImage (frameTrace testConfig 1 0x05) w ∧ IsSilence c ∧ (seeing (w ++ c)).idle = true ∧
     (seeing (w ++ c)).config = testConfig ∧
     (seeing (w ++ c)).samples.queue.map (fun x => x.getLsbD (3 : Face).val) = w ++ c ∧
     ((seeing (w ++ c)).rx.get 3).lastValue = 0x00) ∧
    (let one := List.replicate 9 false ++ choicesV20.flatten
     let w := one ++ (one ++ [false])
     IsLinkImage ([0x05, 0x05].map (frameTrace testConfig 1)) w ∧
     (seeing w).samples.queue.map (fun x => x.getLsbD (3 : Face).val) = w ∧
     ((seeing w).rx.get 3).inputBuffer = 0x00) ∧
    IsLinkImage (([] : List Phy).map (frameTrace testConfig 1)) [] := by
  have v20 : IsImage (frameTrace testConfig 1 0x05) choicesV20.flatten :=
    isImage_of_choices _ _ (by decide) (by decide)
  refine ⟨usable_testConfig.1, rfl, ⟨v20, isSilence_replicate 9, rfl, rfl, by decide, rfl⟩, ⟨?_, by decide, rfl⟩, ?_⟩
  · exact ⟨_, _, _, isSilence_replicate 9, v20, ⟨_, _, _, isSilence_replicate 9, v20, isSilence_replicate 1, rfl⟩, rfl⟩
  · exact isSilence_replicate 0

/-- V23's choices: V20's, the parity symbol sent as a 0-bit. -/
def choicesV23 : List (List Bool) := choicesV20.modify 16 fun _ => [true]

theorem witness_CorruptedFrameIsAParityError :
    7 < 8 ∧ usable (seeing (choicesV23.flatten ++ [false])).config ∧
    (seeing (choicesV23.flatten ++ [false])).config.dropoutZeroSamples = 8 ∧
    (seeing (choicesV23.flatten ++ [false])).idle = true ∧
    IsImage (corruptedTrace testConfig 1 0x05 7) choicesV23.flatten ∧ IsSilence [false] ∧
    (seeing (choicesV23.flatten ++ [false])).samples.queue.map (fun x => x.getLsbD (3 : Face).val) =
      choicesV23.flatten ++ [false] ∧
    ((seeing (choicesV23.flatten ++ [false])).rx.get 3).inputBuffer = 0x00 :=
  ⟨by decide, usable_testConfig.1, rfl, rfl, isImage_of_choices _ _ (by decide) (by decide), isSilence_replicate 1,
   by decide, rfl⟩

theorem witness_IrPollReadsAndClearsTheMailbox :
    (midFrame.rx.get 0).lastValue.getLsbD 7 = true ∧ (base.rx.get 0).lastValue.getLsbD 7 = false := by decide

/-- Face 1 held: a sample step delivers before the next poll, or none falls there. -/
theorem witness_IrGetDataHoldsUntilAValueIsPresent :
    (midFrame.rx.get 0).lastValue.getLsbD 7 = true ∧ (base.rx.get 0).lastValue.getLsbD 7 = false ∧
    (∃ s : State, usable s.config ∧ s.samplerAt = none ∧ s.hold = some 1 ∧
      ((sampleTimes (s.ticks.nth Config.freeTicks 0) { s with ticks := s.ticks.drop 1 }).rx.get 1).lastValue.getLsbD 7
        = true) ∧
    (∃ s : State, usable s.config ∧ s.samplerAt = none ∧ s.hold = some 1 ∧
      ((sampleTimes (s.ticks.nth Config.freeTicks 0) { s with ticks := s.ticks.drop 1 }).rx.get 1).lastValue.getLsbD 7
        = false) :=
  ⟨by decide, by decide,
   ⟨{ withRx 1 0b10000110 0b10000101 0 0 base with hold := some 1, ticks := ⟨[1], 0⟩, samples := ⟨[0], 0⟩ },
    usable_testConfig.1, rfl, rfl, by decide⟩,
   ⟨{ base with hold := some 1, ticks := ⟨[0], 0⟩ }, usable_testConfig.1, rfl, rfl, by decide⟩⟩

theorem witness_PulseGroupsAreSent : (0b000001 : Mask) ≠ 0 ∧ (0b111111 : Mask) ≠ 0 := by decide

theorem witness_TxByteSendsTheFrame :
    (0b100000 : Mask) ≠ 0 ∧ (0x00 : Byte).toNat < 128 ∧ (0x7F : Byte).toNat < 128 ∧
    usable base.config ∧ base.ready = true ∧ base.agenda = [] :=
  ⟨by decide, by decide, by decide, usable_testConfig.1, rfl, rfl⟩

theorem witness_ReceiveStepVisitsTheFacesInOrder : usable base.config ∧ base.ready = true ∧ base.agenda = [] :=
  ⟨usable_testConfig.1, rfl, rfl⟩

theorem witness_SampleStepShiftsAndActsOnEveryFace : usable base.config ∧ base.ready = true := ⟨usable_testConfig.1, rfl⟩

theorem witness_TransmissionOperandsAreRefused :
    (0b000001 : Mask) ≠ 0 ∧ 128 ≤ (0x80 : Byte).toNat ∧
    (([] : List Byte).length = 0 ∨ 18 < ([] : List Byte).length) ∧
    ((List.replicate 19 (0 : Byte)).length = 0 ∨ 18 < (List.replicate 19 (0 : Byte)).length) := by decide

theorem witness_FrameFlashCount : ∃ t : State, exec (.txByte 1 0x05) base = .next t := by
  obtain ⟨t, ht, -⟩ := next_of_nextIs (o := exec (.txByte 1 0x05) base) (p := fun t => t.txTrace.length == 18) (by decide)
  exact ⟨t, ht⟩

theorem witness_TxPacketGoesThroughTheCarrier :
    (1 : Mask) ≠ 0 ∧ (List.replicate 17 (0 : Byte)).length ≤ 17 ∧
    base.config.carrier = .faceOnly ∧ (0x7F : Byte).toNat < 128 ∧ 128 ≤ (0x80 : Byte).toNat ∧
    (carried [] []).config.carrier = .uninterpreted ∧ (carried [] []).ready = true ∧ (carried [] []).agenda = [] := by decide

theorem witness_TransmissionCommutesWithSampling :
    (∃ (t s' : State), transmitOp (.txByte 1 0x05) = true ∧ exec (.txByte 1 0x05) base = .next t ∧
      exec .sampleStep base = .next s') ∧
    (let as := .run (encode .sampleStep) :: List.replicate 18 Action.proceed ++ [.run (encode .sampleStep)]
     (∀ a ∈ as, a = .proceed ∨ a = .run (encode .sampleStep)) ∧ as.count .proceed = 18) ∧
    usable base.config ∧ base.ready = true ∧ base.agenda = [] := by
  obtain ⟨t, ht⟩ := witness_FrameFlashCount
  exact ⟨⟨t, _, rfl, ht, rfl⟩, ⟨by decide, by decide⟩, usable_testConfig.1, rfl, rfl⟩

/-- Face 0 with a value there already, face 1 where the sample step before the poll delivers one, face 2 with none; and a
state where no sample step falls before the six polls. -/
theorem witness_ReceiveStepUnderTheReferenceCarrier :
    (let s : State := { withRx 1 0b10000110 0b10000101 0 0 midFrame with ticks := ⟨[1], 0⟩, samples := ⟨[0], 0⟩ }
     let u := sampleTimes (s.ticks.nth Config.freeTicks 0)
       { s with clock := s.clock.drop 1, ticks := s.ticks.drop 1 }
     s.config.carrier = .faceOnly ∧ (u.rx.get 0).lastValue.getLsbD 7 = true ∧
     (s.rx.get 1).lastValue.getLsbD 7 = false ∧ (u.rx.get 1).lastValue.getLsbD 7 = true ∧
     (u.rx.get 2).lastValue.getLsbD 7 = false) ∧
    (calm 6 midFrame).config.carrier = .faceOnly ∧ (calm 6 midFrame).quietFor 6 :=
  ⟨by decide, rfl, by unfold State.quietFor; decide⟩

/-- The kinds of answer of the carrier; and polls that find a value, that find none, and that are not made. -/
theorem witness_ReceiveFaceUnderAnyCarrier :
    (∀ p ∈ [none, some (Packet.mk 0x15 [0x15]), some ⟨0x33, [0x33]⟩, some ⟨0x80, []⟩, some ⟨0x15, [0x33]⟩,
        some ⟨0x00, [0x80, 0x41]⟩],
      (carried [⟨2, p⟩] []).config.carrier = .uninterpreted ∧
      carrierPolls 0 (carried [⟨2, p⟩] []) = 2 ∧ carrierPacket 0 (carried [⟨2, p⟩] []) [] = p) ∧
    ¬(([] : List Byte) = [] ∧ (0x33 : Byte) = 0x15 ∧ ((0x15 : Byte) = 0x15 ∨ (0x15 : Byte) = 0x33)) ∧
    (let u := fun z : State => sampleTimes (z.ticks.nth Config.freeTicks 0) { z with ticks := z.ticks.drop 1 }
     ((u (calm 1 midFrame)).rx.get 0).lastValue.getLsbD 7 = true ∧
     ((u (calm 1 midFrame)).rx.get 1).lastValue.getLsbD 7 = false) :=
  ⟨fun _ _ => ⟨rfl, rfl, rfl⟩, by decide, by decide⟩

theorem witness_SendStepUnderTheReferenceCarrier :
    base.config.carrier = .faceOnly ∧
    (∀ f : Face, elapsed base.config (base.fc.get f).sendTimer (base.clockAt f.val) = true →
      (base.fc.get f).outValue.toNat < 128) ∧
    usable base.config ∧ base.ready = true ∧ base.agenda = [] := by
  refine ⟨rfl, fun f _ => ?_, usable_testConfig.1, rfl, rfl⟩
  fin_cases f <;> decide

theorem witness_SendStepUnderAnyCarrier :
    let s := carried [] [⟨⟨0x00, [0x80]⟩, [⟨0b000001, 0x00⟩]⟩]
    s.config.carrier = .uninterpreted ∧ s.ready = true ∧ s.agenda = [] := ⟨rfl, rfl, rfl⟩

/-- Face 5, the last one, due with the least value that is too wide. -/
theorem witness_SendStepRefusesAWideFaceValue :
    let s := atTimes [0, 0, 0, 0, 0, 0] (base.onFc 5 fun c => { c with outValue := 0x80 })
    s.config.carrier = .faceOnly ∧ elapsed s.config (s.fc.get 5).sendTimer (s.clockAt 5) = true ∧
    128 ≤ (s.fc.get 5).outValue.toNat := by decide

theorem witness_SendDatagramArmsTheSlot :
    base.inv = true ∧ (base.dgOut.get 2).len = 0 ∧
    ∀ bytes ∈ [[(0x41 : Byte)], List.replicate 16 0x00],
      1 ≤ bytes.length ∧ bytes.length ≤ 16 ∧ bytes.head? ≠ some 0x15 ∧ bytes.head? ≠ some 0x33 := by decide

theorem witness_SendDatagramFailsOrIsRefused :
    (pending.dgOut.get 2).len ≠ 0 ∧ ([] : List Byte).length = 0 ∧ 16 < (List.replicate 17 (0 : Byte)).length ∧
    (List.replicate 17 (0 : Byte)).head? ≠ some 0x15 ∧ (List.replicate 17 (0 : Byte)).head? ≠ some 0x33 ∧
    [(0x15 : Byte), 0x00].head? = some 0x15 ∧ [(0x33 : Byte)].head? = some 0x33 := by decide

/-- V67 (accepted), V66 (slot full), V65 (no payload). -/
theorem witness_HeaderAcknowledgesAndDelivers :
    (withHeader 2 0 1 false base).inv = true ∧ (0b10000010 : Byte).getLsbD 7 = true ∧ [(0x77 : Byte)].length ≤ 16 ∧
    (List.replicate 16 (0 : Byte)).length ≤ 16 ∧
    (1 ≤ [(0x77 : Byte)].length ∧
      (0b10000010 : Byte).extractLsb' 0 3 ≠ ((withHeader 2 0 1 false base).fc.get 2).header.ackSequence ∧
      ((withHeader 2 0 1 false base).dgIn.get 2).len = 0) ∧
    ready.inv = true ∧ (ready.dgIn.get 2).len ≠ 0 ∧
    (withHeader 2 4 0 false pending).inv = true ∧
    (0b10100010 : Byte).extractLsb' 3 3 = ((withHeader 2 4 0 false pending).fc.get 2).header.sequence ∧
    (0b01111111 : Byte).getLsbD 7 = false ∧ 16 < (List.replicate 17 (0 : Byte)).length := by decide

/-- A waiting datagram consumed, and a packet that repeats its number. -/
theorem witness_ConsumedDatagramStaysAcknowledged :
    (ready.dgIn.get 2).len ≠ 0 ∧ (base.dgIn.get 2).len = 0 ∧
    (0x80 ||| ((ready.fc.get 2).header.ackSequence).setWidth 8 : Byte).extractLsb' 0 3 =
      (ready.fc.get 2).header.ackSequence := by decide

theorem witness_DatagramIsDeliveredOnceAndAcknowledged :
    base.inv = true ∧ (base.dgOut.get 0).len = 0 ∧ 1 ≤ [(0x41 : Byte), 0x42].length ∧
    [(0x41 : Byte), 0x42].length ≤ 16 ∧ [(0x41 : Byte), 0x42].head? ≠ some 0x15 ∧
    [(0x41 : Byte), 0x42].head? ≠ some 0x33 ∧ (base.dgIn.get 3).len = 0 ∧
    (base.fc.get 3).header.ackSequence ≠ (base.fc.get 0).header.sequence + 1 := by decide

theorem witness_FaceAboveFiveIsRefused : faceOperand (.setPostponeSleep 6 true) = some 6 ∧ 6 ≤ 6 := by decide

/-- The first clause; then a packet and a send step whose face value is too wide. -/
theorem witness_WellFormedOperationsComplete :
    (∃ t : State, (Instr.irPoll 5).wellFormed = true ∧ exec (.irPoll 5) base = .next t) ∧
    (Instr.txPacket 1 [0x80]).wellFormed = true ∧
    refusedAs (exec (.txPacket 1 [0x80]) base) (.faceValueTooWide 0x80) = true ∧
    Instr.sendStep.wellFormed = true ∧
    refusedAs (exec .sendStep (atTimes [0, 0, 0, 0, 0, 0] (base.onFc 5 fun c => { c with outValue := 0x80 })))
      (.faceValueTooWide 0x80) = true :=
  ⟨⟨_, by decide, rfl⟩, by decide, by decide, by decide, by decide⟩

theorem witness_SamplerTouchesOnlyReceiveState :
    ∃ t : State, samplerOp (.symSync 0) = true ∧ exec (.symSync 0) base = .next t := ⟨_, rfl, rfl⟩

/-- A poll that empties a mailbox, the same with another partial byte there, and a receive step that samples. -/
theorem witness_MainLoopOnlyClearsReceiveState :
    (∃ t : State, samplerOp (.irPoll 0) = false ∧ Instr.irPoll 0 ≠ .receiveStep ∧ exec (.irPoll 0) midFrame = .next t ∧
      (t.rx.get 0).lastValue ≠ (midFrame.rx.get 0).lastValue) ∧
    (let r := (withRx 0 0xFF 0x80 0x85 0 base).rx
     r ≠ midFrame.rx ∧
     ∀ f : Face, (r.get f).lastValue = (midFrame.rx.get f).lastValue ∧
       (r.get f).errorBits = (midFrame.rx.get f).errorBits) ∧
    nextIs (exec .receiveStep { atTimes [0, 0, 0, 0, 0, 0] midFrame with
        ticks := ⟨[1, 0, 0, 0, 0, 0], 0⟩, samples := ⟨[0], 0⟩ }) (fun t =>
      (t.rx.get 0).bitstream == 0x08 && (t.rx.get 0).lastValue == 0) = true ∧
    midFrame.samplerAt = none ∧
    nextIs (step { midFrame with agenda := [.run (encode (.irPoll 0))] }) (fun t =>
      t.samples == midFrame.samples && (t.rx.get 0).lastValue == 0) = true :=
  ⟨⟨_, rfl, by decide, rfl, by decide⟩, by decide, by decide, rfl, by decide⟩

/-- Each register changes somewhere. -/
theorem witness_FaceChannelRegistersHaveTheirWriters :
    nextIs (exec .receiveStep (calm 6 (atTimes [7, 7, 7, 7, 7, 7] midFrame))) (fun t =>
      (t.fc.get 0).inValue != (midFrame.fc.get 0).inValue &&
      (t.fc.get 0).expireTimer != (midFrame.fc.get 0).expireTimer &&
      (t.fc.get 0).sendTimer != (midFrame.fc.get 0).sendTimer) = true ∧
    nextIs (exec (.setOutgoingValue 0 5) base) (fun t => (t.fc.get 0).outValue != (base.fc.get 0).outValue) = true ∧
    nextIs (exec (.sendDatagram 0 [1]) base) (fun t =>
      (t.fc.get 0).header.sequence != (base.fc.get 0).header.sequence &&
      (t.dgOut.get 0).bytes != (base.dgOut.get 0).bytes) = true ∧
    nextIs (exec (.specialSleep 0) (atTimes [7] base)) (fun t =>
      (t.fc.get 0).expireTimer != (base.fc.get 0).expireTimer) = true ∧
    nextIs (exec (.header 0 0b10000010 [1]) base) (fun t =>
      (t.fc.get 0).header.ackSequence != (base.fc.get 0).header.ackSequence) = true ∧
    nextIs (exec (.setPostponeSleep 0 true) base) (fun t =>
      (t.fc.get 0).header.postponeSleep != (base.fc.get 0).header.postponeSleep) = true ∧
    nextIs (exec (.didValueChange 0) (base.onFc 0 fun c => { c with inValue := 5 })) (fun t =>
      (t.fc.get 0).shadow != 0) = true ∧
    nextIs (step { base with mainAt := some (.treating (.header 0 0b10000010 [1]) []) }) (fun t =>
      (t.fc.get 0).header.ackSequence != (base.fc.get 0).header.ackSequence &&
      (t.dgIn.get 0).bytes != (base.dgIn.get 0).bytes) = true ∧
    (base.launch && !base.receives && nextIs (step base) (fun t => t.launch)) = true := by decide

/-- An arming, an acknowledgement, and a step that leaves an occupied slot alone. -/
theorem witness_OutboundSlotChangesOnlyByArmingAndAck :
    nextIs (exec (.sendDatagram 2 [1]) base) (fun t => (t.dgOut.get 2).len != 0) = true ∧
    (base.dgOut.get 2).len = 0 ∧ (pending.dgOut.get 2).len ≠ 0 ∧
    nextIs (exec (.header 2 0b10000000 []) pending) (fun t => (t.dgOut.get 2).len == 0) = true ∧
    nextIs (exec (.irPoll 2) pending) (fun t => (t.dgOut.get 2).len != 0) = true := by decide

/-- A receive step in which the carrier reports the acknowledgement on face 2. -/
theorem witness_OutboundSlotChangesOnlyByArmingAndAck_receive :
    nextIs (exec .receiveStep (atTimes [0, 0, 0, 0, 0, 0] { pending with
        config := { testConfig with carrier := .uninterpreted }
        carrierRx := ⟨[⟨0, none⟩, ⟨0, none⟩, ⟨0, some ⟨0x05, [0b10000000]⟩⟩, ⟨0, none⟩, ⟨0, none⟩, ⟨0, none⟩], 0⟩ }))
      (fun t => (t.dgOut.get 2).len == 0) = true := by decide

/-- The moves of the contract: a packet of two bytes handed over in two frames for face 0, a value found and the packet
reported on face 3, and the reference carrier's one value. -/
theorem test_contract_moves :
    (let s := carried [] [⟨⟨0x05, [0x80]⟩, [⟨0b000001, 0x05⟩, ⟨0b000001, 0x01⟩]⟩]
     ∃ t : State, carrierMoves (.handOver 0b000001 ⟨0x05, [0x80]⟩ [⟨1, 0x05⟩, ⟨1, 0x01⟩]) s t) ∧
    (let s := calm 1 (withRx 3 0 0 0x85 0 (carried [⟨1, some ⟨0x05, [0x80]⟩⟩] []))
     ∃ t : State, carrierMoves (.receive 3 [0x05] (some ⟨0x05, [0x80]⟩)) s t) ∧
    foundBy 3 (calm 1 (withRx 3 0 0 0x85 0 base)) = [0x05] :=
  ⟨⟨_, by decide, by decide, _, rfl, rfl, rfl, rfl, rfl⟩, ⟨_, by decide, by decide, rfl, rfl, rfl, rfl⟩, by decide⟩

/-- The premises of the contract can be met together: two tiles with nothing to send, one calling `PKT_RX(0)` for ever. -/
theorem test_contract_premises :
    ∃ (a b : State) (sa sb : Nat → State) (ma mb : Nat → CarrierMove),
      CarrierRun a sa ma ∧ CarrierRun b sb mb ∧ CleanLink 0 (firstMoves (·.sentOn 0) ma) sb mb ∧
      (∀ n : Nat, ∃ k : Nat, n ≤ k ∧ (mb k).callsOn 0 = true) := by
  have hv : [] = foundBy 0 (calm 1 base) := by decide
  have hp : none = (packetRx 0 (calm 1 base)).packet := by decide
  have he : ((calm 1 base).rx.get 0).pollValue.toList = [] := by decide
  refine ⟨base, calm 1 base, fun _ => base, fun _ => calm 1 base, fun _ => .other, fun _ => .receive 0 [] none,
    ⟨rfl, fun _ => ⟨rfl, rfl, rfl, rfl⟩⟩, ⟨rfl, fun _ => ⟨hv, hp, rfl, rfl, rfl, rfl⟩⟩, ⟨?_, ?_, ?_⟩,
    fun n => ⟨n, le_rfl, rfl⟩⟩ <;>
  simp [arrived, firstMoves, CarrierMove.foundOn, CarrierMove.sentOn, he, List.flatMap_eq_nil_iff.mpr]

/-- A carrier that never polls leaves the link clean: the first of two values sent stays in the mailbox, and the second does
not come. So the contract holds it to its reports. -/
theorem test_clean_link_without_polls :
    CleanLink 0 (fun _ => [0x05, 0x01]) (fun _ => withRx 0 0 0 0x85 0 base) (fun _ => .receive 0 [] none) := by
  have hv : ((withRx 0 0 0 0x85 0 base).rx.get 0).pollValue.toList = [0x05] := by decide
  have hp : ((withRx 0 0 0 0x85 0 base).rx.get 0).present ≠ false := by decide
  have ha : ∀ n, arrived 0 (fun _ => withRx 0 0 0 0x85 0 base) (fun _ => .receive 0 [] none) n = [0x05] := by
    intro n
    unfold arrived
    rw [hv]
    simp [firstMoves, CarrierMove.foundOn]
  exact ⟨fun n => ⟨0, by rw [ha]; exact ⟨[0x01], rfl⟩⟩, fun n => by rw [ha, ha], fun _ _ h => absurd h hp⟩

/-- A carrier that withholds a packet for ever, whatever else it waits for, does not meet the contract: nothing reported is
not the same in the end as something handed over. -/
theorem test_withheld_packet_breaks_the_contract (x y : Nat → List Packet) (m : Nat) (hx : ∀ n, x n = []) (hy : y m ≠ []) :
    ¬SameInTheEnd x y := by
  rintro ⟨-, h⟩
  obtain ⟨n, hn⟩ := h m
  rw [hx n] at hn
  exact hy (List.prefix_nil.mp hn)

/-- 10 R48: in every configuration the state after reset is one a cautious claim starts from. -/
theorem test_reset_launches (cfg : Config) : (State.resetWith cfg).launch = true := rfl

end Sys2Proof.Tests
end

namespace Sys2Proof.Machine

/-! ### The setters of the outgoing value (43 R190, R191) -/

/-- 43 R190: on a face the operand check passes, and what is left is one update of that face's channel. -/
theorem exec_setOutgoingValue (f : Face) (v : Byte) (s : State) :
    exec (.setOutgoingValue f.val v) s = .next (s.setFc f { s.fc.get f with outValue := v }) := by
  simp only [exec, execSetOutgoingValue, withFace_val, State.onFc_eq]

/-- 43 R191: the loop over the six faces is one write of the whole register file, with no operand to refuse. -/
theorem exec_setOutgoingValueAll (v : Byte) (s : State) :
    exec (.setOutgoingValueAll v) s =
      .next { s with fc := PerFace.ofFn fun f => { s.fc.get f with outValue := v } } := rfl

/-- Settles O41: the single setter is the update of one face's channel, which `State.setFc` writes into `fc` alone, and the
setter of all faces is its own equation. -/
theorem settersWriteTheOutgoingValue : Obligations.SettersWriteTheOutgoingValue := by
  intro v s
  refine ⟨fun f => ?_, exec_setOutgoingValueAll v s⟩
  rw [exec_setOutgoingValue, State.setFc]

end Sys2Proof.Machine

namespace Sys2Proof.Machine

/-! ### Consuming a datagram (44 R217) and duplicates (44 R211) -/

/-- 44 R217: on a face the operand check passes, and what is left is one write of that face's inbound slot. -/
theorem exec_consumeDatagram (f : Face) (s : State) :
    exec (.consumeDatagram f.val) s = .next (s.setDgIn f (s.dgIn.get f).free) := by
  simp only [exec, execConsumeDatagram, withFace_val]

theorem Slot.free_of_empty {sl : Slot} (h : sl.len = 0) : sl.free = sl := by
  cases sl; cases h; rfl

@[simp] theorem State.setDgIn_get_self (f : Face) (s : State) : s.setDgIn f (s.dgIn.get f) = s := by
  simp [State.setDgIn]

/-- 44 R221: the report goes to the event trace, so the rules after it read the registers of before. -/
@[simp] theorem reportPostpone_dgIn (f : Face) (h : Byte) (s : State) : (reportPostpone f h s).dgIn = s.dgIn := by
  unfold reportPostpone; split <;> rfl

@[simp] theorem reportPostpone_fc (f : Face) (h : Byte) (s : State) : (reportPostpone f h s).fc = s.fc := by
  unfold reportPostpone; split <;> rfl

/-- 44 R210: the acknowledgement rule writes the outbound slot only. -/
@[simp] theorem acknowledge_dgIn (f : Face) (h : Byte) (s : State) : (acknowledge f h s).dgIn = s.dgIn := by
  unfold acknowledge; split <;> rfl

@[simp] theorem acknowledge_fc (f : Face) (h : Byte) (s : State) : (acknowledge f h s).fc = s.fc := by
  unfold acknowledge; split <;> rfl

/-- 44 R211: a datagram that bears the number last accepted is not accepted, whatever the inbound slot holds. -/
theorem accept_duplicate {f : Face} {h : Byte} {payload : List Byte} {s : State}
    (hseq : headerSeq h = (s.fc.get f).header.ackSequence) : accept f h payload s = s := by
  simp [accept, accepts, hseq]

/-- 44 R211: the rules before acceptance keep `ackSequence`, so a duplicate is one there too, and no inbound slot changes. -/
theorem datagramReceive_duplicate_dgIn {f : Face} {h : Byte} {payload : List Byte} {s : State}
    (hseq : headerSeq h = (s.fc.get f).header.ackSequence) : (datagramReceive f h payload s).dgIn = s.dgIn := by
  obtain hnone | ⟨-, -, hrules⟩ := datagramReceive_cases f h payload s
  · rw [hnone]
  · rw [hrules, accept_duplicate (by simpa using hseq), acknowledge_dgIn, reportPostpone_dgIn]

/-- Settles O48: consuming writes one inbound slot and leaves `ackSequence`, so a packet with that number is a duplicate
still; and freeing an empty slot writes back what it holds. -/
theorem consumedDatagramStaysAcknowledged : Obligations.ConsumedDatagramStaysAcknowledged := by
  intro f s
  refine ⟨s.setDgIn f (s.dgIn.get f).free, exec_consumeDatagram f s, rfl, ?freed, ?others, rfl, ?duplicate, ?empty⟩
  case freed => simp
  case others => exact fun g hg => PerFace.get_set_of_ne s.dgIn _ hg
  case duplicate => exact fun h payload hseq => datagramReceive_duplicate_dgIn hseq
  case empty => exact fun hlen => by rw [Slot.free_of_empty hlen, State.setDgIn_get_self]

end Sys2Proof.Machine

namespace Sys2Proof.Machine

/-! ### What an operation that completes leaves (30 R102) -/

/-- What an operation that completes leaves, rows that leave the same kind of state taken together: each claim about every
operation is a case split over this. -/
inductive Effect (s : State) : Instr → State → Prop
  | outcome (c : SampleClass) (f : Face) : Effect s (c.instr f.val) (s.setRx f ((s.rx.get f).act c))
  | pulses (i : Instr) (es : List TxEvent) (hpart : partOnly i = true) (hop : samplerOp i = false) :
      Effect s i (s.transmit es)
  | txByte (m : Mask) (v : Byte) : Effect s (.txByte m v) (s.transmit (frameTrace s.config m (v.setWidth 7)))
  | txPacket (m : Mask) (p : Packet) (t : State) (hsent : packetTx m p s = .ok t) : Effect s (.txPacket m p.bytes) t
  | sampleStep : Effect s .sampleStep (sampleAll s)
  | irPoll (f : Face) :
      Effect s (.irPoll f.val) ((s.setRx f (s.rx.get f).afterPoll).returns (.poll (s.rx.get f).pollValue))
  | takeData (f : Face) : Effect s (.irGetData f.val) (takeData f s)
  | holds (f : Face) : Effect s (.irGetData f.val) { s with hold := some f }
  | irReadErrors (f : Face) :
      Effect s (.irReadErrors f.val) ((s.setRx f (s.rx.get f).clearErrors).returns (.errors (s.rx.get f).errorBits))
  | receiveStep : Effect s .receiveStep (receiveFaces allFaces s)
  | sendStep (t : State) (hsent : sendFaces allFaces s = .ok t) : Effect s .sendStep t
  | setOutgoingValue (f : Face) (v : Byte) :
      Effect s (.setOutgoingValue f.val v) (s.setFc f { s.fc.get f with outValue := v })
  | setOutgoingValueAll (v : Byte) :
      Effect s (.setOutgoingValueAll v) { s with fc := PerFace.ofFn fun f => { s.fc.get f with outValue := v } }
  | answers (i : Instr) (r : Result) (hop : samplerOp i = false) : Effect s i (s.returns r)
  | answersFromClock (i : Instr) (r : Result) (hop : samplerOp i = false) : Effect s i (s.afterNow.returns r)
  | didValueChange (f : Face) (r : Result) :
      Effect s (.didValueChange f.val) ((s.setFc f { s.fc.get f with shadow := (s.fc.get f).inValue }).returns r)
  | arms (f : Face) (bytes : List Byte) (hcan : canArm f bytes s = true) :
      Effect s (.sendDatagram f.val bytes) ((arm f bytes s).returns (.flag true))
  | consumes (f : Face) : Effect s (.consumeDatagram f.val) (s.setDgIn f (s.dgIn.get f).free)
  | setPostponeSleep (f : Face) (b : Bool) :
      Effect s (.setPostponeSleep f.val b)
        (s.setFc f { s.fc.get f with header := { (s.fc.get f).header with postponeSleep := b } })
  | header (f : Face) (h : Byte) (payload : List Byte) :
      Effect s (.header f.val h payload) (datagramReceive f h payload s)
  | special (i : Instr) (f : Face) (c : Byte) (hrow : i = .specialSleep f.val ∨ i = .specialWake f.val) :
      Effect s i ((refreshExpiry f s.now s.afterNow).notify (.specialPacket f c))

/-- A transmission that completes is one that was not refused. -/
theorem sent_next {r : Except Refusal State} {t : State} (h : sent r = .next t) : r = .ok t := by
  cases r with
  | ok u => cases h; rfl
  | error e => cases h

/-- The rows of the pattern match have one meaning, the outcome of their class (40 R122). -/
theorem exec_outcome_row (c : SampleClass) (f : Nat) (s : State) :
    exec (c.instr f) s = withFace f fun g => .next (s.onRx g (RxFace.act c)) := by
  cases c <;> rfl

theorem outcome_effect (c : SampleClass) {f : Nat} {s t : State} (h : exec (c.instr f) s = .next t) :
    Effect s (c.instr f) t := by
  rw [exec_outcome_row] at h
  obtain ⟨g, rfl, hk⟩ := withFace_next h
  cases hk; exact .outcome c g

/-- An operation that completes leaves what its row says; its operands were in their domain. -/
theorem exec_effect {i : Instr} {s t : State} (h : exec i s = .next t) : Effect s i t := by
  unfold exec at h
  cases i with
  | symZero f => exact outcome_effect .zero h
  | symOneAdj f => exact outcome_effect .oneAdj h
  | symOneSkew f => exact outcome_effect .oneSkew h
  | symSync f => exact outcome_effect .sync h
  | rxDropout f => exact outcome_effect .dropout h
  | rxNoise1011 f => exact outcome_effect .noise1011 h
  | rxNoise1101 f => exact outcome_effect .noise1101 h
  | rxNoise10101 f => exact outcome_effect .noise10101 h
  | rxNone f => exact outcome_effect .nothing h
  | txsSync m => obtain ⟨-, h⟩ := withMask_next h; cases h; exact .pulses _ _ rfl rfl
  | txsZero m => obtain ⟨-, h⟩ := withMask_next h; cases h; exact .pulses _ _ rfl rfl
  | txsOne m => obtain ⟨-, h⟩ := withMask_next h; cases h; exact .pulses _ _ rfl rfl
  | txByte m v =>
    obtain ⟨-, h⟩ := withMask_next h
    obtain ⟨-, h⟩ := withPhy_next h
    cases h; exact .txByte m v
  | txPacket m bytes =>
    obtain ⟨-, h⟩ := withMask_next h
    obtain ⟨p, rfl, -, hk⟩ := withPacket_next h
    exact .txPacket m p t (sent_next hk)
  | sampleStep => cases h; exact .sampleStep
  | irPoll f => obtain ⟨g, rfl, hk⟩ := withFace_next h; cases hk; exact .irPoll g
  | irGetData f =>
    obtain ⟨g, rfl, hk⟩ := withFace_next h
    split at hk <;> cases hk
    · exact .takeData g
    · exact .holds g
  | irReadErrors f => obtain ⟨g, rfl, hk⟩ := withFace_next h; cases hk; exact .irReadErrors g
  | receiveStep => cases h; exact .receiveStep
  | sendStep => exact .sendStep t (sent_next h)
  | setOutgoingValue f v => obtain ⟨g, rfl, hk⟩ := withFace_next h; cases hk; exact .setOutgoingValue g v
  | setOutgoingValueAll v => cases h; exact .setOutgoingValueAll v
  | getIncomingValue f => obtain ⟨g, rfl, hk⟩ := withFace_next h; cases hk; exact .answers _ _ rfl
  | didValueChange f => obtain ⟨g, rfl, hk⟩ := withFace_next h; cases hk; exact .didValueChange g _
  | isExpired f => obtain ⟨g, rfl, hk⟩ := withFace_next h; cases hk; exact .answersFromClock _ _ rfl
  | isAlone => cases h; exact .answersFromClock _ _ rfl
  | sendDatagram f bytes =>
    obtain ⟨g, rfl, hk⟩ := withFace_next h
    have hk := withPayload_next hk
    split at hk <;> cases hk
    · exact .arms g bytes ‹_›
    · exact .answers _ _ rfl
  | isDatagramPending f => obtain ⟨g, rfl, hk⟩ := withFace_next h; cases hk; exact .answers _ _ rfl
  | isDatagramReady f => obtain ⟨g, rfl, hk⟩ := withFace_next h; cases hk; exact .answers _ _ rfl
  | datagramLength f => obtain ⟨g, rfl, hk⟩ := withFace_next h; cases hk; exact .answers _ _ rfl
  | getDatagram f => obtain ⟨g, rfl, hk⟩ := withFace_next h; cases hk; exact .answers _ _ rfl
  | consumeDatagram f => obtain ⟨g, rfl, hk⟩ := withFace_next h; cases hk; exact .consumes g
  | setPostponeSleep f b => obtain ⟨g, rfl, hk⟩ := withFace_next h; cases hk; exact .setPostponeSleep g b
  | enterSleep => cases h
  | notifyActivity => cases h
  | header f b payload => obtain ⟨g, rfl, hk⟩ := withFace_next h; cases hk; exact .header g b payload
  | specialSleep f => obtain ⟨g, rfl, hk⟩ := withFace_next h; cases hk; exact .special _ g _ (.inl rfl)
  | specialWake f => obtain ⟨g, rfl, hk⟩ := withFace_next h; cases hk; exact .special _ g _ (.inr rfl)

end Sys2Proof.Machine

namespace Sys2Proof.Machine

/-! ### One step, by what is under way (log 1) -/

theorem step_of_samplerAt {s : State} {p : SamplerPosition} (hc : usable s.config) (hs : s.samplerAt = some p) :
    step s = samplerPart p s := by
  rw [step, (configRefusal_eq_none _).mpr hc, hs]

theorem step_of_hold {s : State} {f : Face} (hc : usable s.config) (hs : s.samplerAt = none) (hh : s.hold = some f) :
    step s = whileHeld f s := by
  rw [step, (configRefusal_eq_none _).mpr hc, hs, hh]

theorem step_of_mainAt {s : State} {p : MainPosition} (hc : usable s.config) (hs : s.samplerAt = none)
    (hh : s.hold = none) (hm : s.mainAt = some p) : step s = whileUnderWay p s := by
  rw [step, (configRefusal_eq_none _).mpr hc, hs, hh, hm]

theorem State.ready_iff (s : State) : s.ready = true ↔ s.hold = none ∧ s.mainAt = none ∧ s.samplerAt = none := by
  simp [State.ready, and_assoc]

theorem step_of_pending {s : State} {a : Action} {rest : List Action} (hc : usable s.config) (hr : s.ready = true)
    (ha : s.agenda = a :: rest) : step s = runAction a { s with agenda := rest } := by
  obtain ⟨hh, hm, hs⟩ := s.ready_iff.mp hr
  have hf : s.fetch = some (a, { s with agenda := rest }) := by rw [State.fetch, ha]
  simp only [step, (configRefusal_eq_none _).mpr hc, hs, hh, hm, hf]

theorem step_of_nothing_pending {s : State} (hc : usable s.config) (hr : s.ready = true) (ha : s.agenda = []) :
    step s = exec .sampleStep s := by
  obtain ⟨hh, hm, hs⟩ := s.ready_iff.mp hr
  have hf : s.fetch = none := by rw [State.fetch, ha]
  simp only [step, (configRefusal_eq_none _).mpr hc, hs, hh, hm, hf]

theorem step_of_unusable {s : State} {r : Refusal} (hc : configRefusal s.config = some r) : step s = .refused r := by
  rw [step, hc]

/-- The part that goes on when the main loop is not kept from it, `proceed` being taken off the agenda (42 R160). -/
theorem whileUnderWay_nil {p : MainPosition} {s : State} (ha : s.agenda = []) : whileUnderWay p s = mainPart p s := by
  rw [whileUnderWay, ha]

theorem whileUnderWay_proceed {p : MainPosition} {s : State} {rest : List Action} (ha : s.agenda = .proceed :: rest) :
    whileUnderWay p s = mainPart p { s with agenda := rest } := by
  rw [whileUnderWay, ha]

@[simp] theorem decode_encode_sampleStep : decode (encode .sampleStep) = .ok .sampleStep := rfl

@[simp] theorem isSampleStep_iff (c : Code) : isSampleStep c = true ↔ decode c = .ok .sampleStep := by
  simp [isSampleStep]

/-! ### What a step that answers a next state leaves -/

/-- What a step that answers a next state leaves, by what was under way or pending (logs 1, 3, 4, 15); `rest` is the
agenda left. -/
inductive Stepped (s : State) : State → Prop
  | samplerEnds (hat : s.samplerAt ≠ none) : Stepped s { s with samplerAt := none }
  | shifts (f : Face) (b : Bool) (p : Option SamplerPosition) (hat : s.samplerAt ≠ none) :
      Stepped s { s.setRx f ((s.rx.get f).shift b) with samplerAt := p }
  | acts (c : SampleClass) (f : Face) (p : Option SamplerPosition) (hat : s.samplerAt ≠ none) :
      Stepped s { s.setRx f ((s.rx.get f).act c) with samplerAt := p }
  | holdsOn : Stepped s (preempt s)
  | takesHeld (f : Face) : Stepped s (takeData f (preempt s))
  | samples (rest : List Action) : Stepped s (sampleAll { s with agenda := rest })
  | beginsSampling (rest : List Action) : Stepped s (startSampleStep { s with agenda := rest })
  | proceedsIdle (rest : List Action) : Stepped s { s with agenda := rest }
  | runs (i : Instr) (rest : List Action) (t : State) (hpart : partOnly i = false)
      (hdoes : ∀ p q, s.mainDoes p q = q i) (hexec : exec i { s with agenda := rest } = .next t) : Stepped s t
  | beginsSendStep (rest : List Action) : Stepped s { s with agenda := rest, mainAt := sendStepAt allFaces }
  | beginsReceiveStep (rest : List Action) : Stepped s { s with agenda := rest, mainAt := receiveStepAt allFaces }
  | handsOver (rest : List Action) (frs : List Frame) (after : Option SendRest) (u : State)
      (hu : u = { s with agenda := rest, clock := u.clock, carrierTx := u.carrierTx, carrierLog := u.carrierLog })
      (hmask : ∀ fr ∈ frs, fr.mask ≠ 0) : Stepped s (sendingAt (Transmission.start frs) after u)
  | sends (rest : List Action) (x : Transmission) (after : Option SendRest) (hat : s.mainAt = some (.sending x after))
      (hdoes : ∀ p q, s.mainDoes p q = p (.sending x after)) :
      Stepped s (sendingAt x.next after ({ s with agenda := rest }.transmit (x.call s.config)))
  | skipsFace (rest : List Action) (fs : List Face) :
      Stepped s { { s with agenda := rest }.afterNow with mainAt := sendStepAt fs }
  | sendStepEnds (rest : List Action) : Stepped s { s with agenda := rest, mainAt := none }
  | receives (rest : List Action) (fs : List Face) (hdoes : ∀ p q, s.mainDoes p q = p (.receiveStep fs)) :
      Stepped s (receiveVisit fs { s with agenda := rest })
  | treats (rest : List Action) (r : ReceivePart) (fs : List Face) (t : State)
      (hdoes : ∀ p q, s.mainDoes p q = p (.treating r fs))
      (hexec : exec r.instr { s with agenda := rest, mainAt := receiveStepAt fs } = .next t) : Stepped s t

theorem State.mainDoes_of_mainAt {s : State} {x : MainPosition} (hs : s.samplerAt = none) (hh : s.hold = none)
    (hm : s.mainAt = some x) (p : MainPosition → Bool) (q : Instr → Bool) : s.mainDoes p q = p x := by
  simp [State.mainDoes, hs, hh, hm]

theorem State.mainDoes_of_pending {s : State} {a : Action} {rest : List Action} {i : Instr} (hr : s.ready = true)
    (ha : s.agenda = a :: rest) (hi : a.operation = some i) (p : MainPosition → Bool) (q : Instr → Bool) :
    s.mainDoes p q = q i := by
  obtain ⟨hh, hm, hs⟩ := s.ready_iff.mp hr
  simp [State.mainDoes, hs, hh, hm, ha, hi]

/-- The hand-over of a packet writes the carrier's own state, and its frames go to faces of the packet's mask. -/
theorem packetFrames_frame {m : Mask} {p : Packet} {s u : State} {frs : List Frame} (hm : m ≠ 0)
    (h : packetFrames m p s = .ok (frs, u)) :
    u = { s with carrierTx := u.carrierTx, carrierLog := u.carrierLog } ∧ ∀ fr ∈ frs, fr.mask ≠ 0 := by
  obtain ⟨-, -, rfl, rfl⟩ | ⟨-, rfl, rfl⟩ := packetFrames_ok h
  · exact ⟨rfl, by simpa using hm⟩
  · refine ⟨rfl, fun fr hfr => ?_⟩
    obtain ⟨c, -, rfl⟩ := List.mem_map.mp hfr
    exact frameMask_ne_zero c.part hm

theorem startPacket_next {m : Mask} {p : Packet} {after : Option SendRest} {s t : State}
    (h : startPacket m p after s = .next t) :
    ∃ frs u, packetFrames m p s = .ok (frs, u) ∧ t = sendingAt (Transmission.start frs) after u := by
  unfold startPacket at h
  split at h
  · cases h; exact ⟨_, _, ‹_›, rfl⟩
  · cases h

theorem faceMask_ne_zero (f : Face) : faceMask f ≠ 0 := by
  fin_cases f <;> decide

theorem sendVisit_cons (f : Face) (fs : List Face) (s : State) :
    sendVisit (f :: fs) s =
      if elapsed s.config (s.fc.get f).sendTimer s.now then
        startPacket (faceMask f) (outPacket f s) (some ⟨f, s.now, fs⟩) s.afterNow
      else .next { s.afterNow with mainAt := sendStepAt fs } := rfl

theorem sendVisit_stepped {s t : State} {rest : List Action} (fs : List Face)
    (h : sendVisit fs { s with agenda := rest } = .next t) : Stepped s t := by
  cases fs with
  | nil => cases h; exact .sendStepEnds rest
  | cons f fs =>
    rw [sendVisit_cons] at h
    split at h
    · obtain ⟨frs, u, hfrs, rfl⟩ := startPacket_next h
      obtain ⟨hu, hmask⟩ := packetFrames_frame (faceMask_ne_zero f) hfrs
      exact .handsOver rest frs _ u (by rw [hu]; rfl) hmask
    · cases h; exact .skipsFace rest fs

theorem mainPart_stepped {s t : State} {rest : List Action} {p : MainPosition} (hs : s.samplerAt = none)
    (hh : s.hold = none) (hm : s.mainAt = some p) (h : mainPart p { s with agenda := rest } = .next t) : Stepped s t := by
  have hdoes := State.mainDoes_of_mainAt hs hh hm
  cases p with
  | sending x after => cases h; exact .sends rest x after hm hdoes
  | sendStep fs => exact sendVisit_stepped fs h
  | receiveStep fs => cases h; exact .receives rest fs hdoes
  | treating r fs => exact .treats rest r fs t hdoes h

theorem whileUnderWay_stepped {s t : State} {p : MainPosition} (hs : s.samplerAt = none)
    (hh : s.hold = none) (hm : s.mainAt = some p) (h : whileUnderWay p s = .next t) : Stepped s t := by
  have stay : mainPart p s = .next t → Stepped s t := mainPart_stepped (rest := s.agenda) hs hh hm
  unfold whileUnderWay at h
  split at h
  · split at h
    · cases h; exact .samples _
    · exact stay h
  · split at h
    · cases h; exact .beginsSampling _
    · exact stay h
  · exact mainPart_stepped hs hh hm h
  · exact stay h

theorem runCode_next {k : Instr → State → Out} {c : Code} {s t : State} (h : runCode k c s = .next t) :
    ∃ i, decode c = .ok i ∧ partOnly i = false ∧ k i s = .next t := by
  unfold runCode at h
  split at h
  next i hi =>
    cases hpart : partOnly i <;> simp only [hpart] at h
    · exact ⟨i, hi, hpart, h⟩
    · cases h
  next => cases h

theorem start_stepped {i : Instr} {s t : State} {rest : List Action} (hpart : partOnly i = false)
    (hdoes : ∀ p q, s.mainDoes p q = q i) (h : start i { s with agenda := rest } = .next t) : Stepped s t := by
  cases i with
  | sampleStep => cases h; exact .beginsSampling rest
  | txByte m v =>
    obtain ⟨hm, h⟩ := withMask_next h
    obtain ⟨-, h⟩ := withPhy_next h
    cases h; exact .handsOver rest _ none _ rfl (by simpa using hm)
  | txPacket m bytes =>
    obtain ⟨hm, h⟩ := withMask_next h
    obtain ⟨p, rfl, -, hk⟩ := withPacket_next h
    obtain ⟨frs, u, hfrs, rfl⟩ := startPacket_next hk
    obtain ⟨hu, hmask⟩ := packetFrames_frame hm hfrs
    exact .handsOver rest frs none u (by rw [hu]) hmask
  | sendStep => cases h; exact .beginsSendStep rest
  | receiveStep => cases h; exact .beginsReceiveStep rest
  | _ => exact .runs _ rest t hpart hdoes h

theorem runAction_stepped {s t : State} {a : Action} {rest : List Action} (hr : s.ready = true)
    (ha : s.agenda = a :: rest) (h : runAction a { s with agenda := rest } = .next t) : Stepped s t := by
  cases a with
  | run c =>
    obtain ⟨i, hi, hpart, hk⟩ := runCode_next h
    exact .runs i rest t hpart (State.mainDoes_of_pending hr ha (by simp [Action.operation, hi, Except.toOption])) hk
  | inParts c =>
    obtain ⟨i, hi, hpart, hk⟩ := runCode_next h
    exact start_stepped hpart (State.mainDoes_of_pending hr ha (by simp [Action.operation, hi, Except.toOption])) hk
  | proceed => cases h; exact .proceedsIdle rest

theorem samplerPart_stepped {s t : State} {p : SamplerPosition} (hat : s.samplerAt ≠ none)
    (h : samplerPart p s = .next t) : Stepped s t := by
  unfold samplerPart at h
  split at h
  · cases h; exact .samplerEnds hat
  · cases h; exact .shifts _ _ _ hat
  · rw [exec_outcome] at h
    cases h; exact .acts _ _ _ hat

/-- A step that answers a next state is one of these. -/
theorem step_stepped {s t : State} (h : step s = .next t) : Stepped s t := by
  have hc : usable s.config := by
    rw [← configRefusal_eq_none]
    by_contra hne
    obtain ⟨r, hr⟩ := Option.ne_none_iff_exists'.mp hne
    rw [step_of_unusable hr] at h
    cases h
  rcases hs : s.samplerAt with _ | p
  · rcases hh : s.hold with _ | f
    · rcases hm : s.mainAt with _ | p
      · have hr : s.ready = true := s.ready_iff.mpr ⟨hh, hm, hs⟩
        rcases ha : s.agenda with _ | ⟨a, rest⟩
        · rw [step_of_nothing_pending hc hr ha] at h
          cases h; exact .samples s.agenda
        · exact runAction_stepped hr ha (step_of_pending hc hr ha ▸ h)
      · exact whileUnderWay_stepped hs hh hm (step_of_mainAt hc hs hh hm ▸ h)
    · rw [step_of_hold hc hs hh, whileHeld] at h
      split at h <;> cases h
      · exact .takesHeld f
      · exact .holdsOn
  · exact samplerPart_stepped (by simp [hs]) (step_of_samplerAt hc hs ▸ h)

end Sys2Proof.Machine

namespace Sys2Proof.Machine

/-! ### What a transmission leaves (42 R159, 43 R186) -/

/-- What the send path may do between two states: append pulses, take clock readings and carrier answers, and move a
`sendTimer` to a number of `TIMER_BITS` bits. -/
structure SendPath (s t : State) : Prop where
  frame : t = { s with
    fc := t.fc, txTrace := t.txTrace, clock := t.clock, carrierTx := t.carrierTx, carrierLog := t.carrierLog }
  appends : ∃ es, t.txTrace = s.txTrace ++ es
  timers : ∀ f, ∃ x, t.fc.get f = { s.fc.get f with sendTimer := x } ∧
    (x = (s.fc.get f).sendTimer ∨ x ≤ neverOf s.config)

theorem SendPath.config {s t : State} (h : SendPath s t) : t.config = s.config := by rw [h.frame]

theorem SendPath.refl (s : State) : SendPath s s := ⟨rfl, ⟨[], by simp⟩, fun f => ⟨(s.fc.get f).sendTimer, rfl, .inl rfl⟩⟩

theorem SendPath.trans {s t u : State} (h1 : SendPath s t) (h2 : SendPath t u) : SendPath s u where
  frame := h2.frame.trans (by rw [h1.frame])
  appends := by
    obtain ⟨es, hes⟩ := h1.appends
    obtain ⟨es', hes'⟩ := h2.appends
    exact ⟨es ++ es', by rw [hes', hes, List.append_assoc]⟩
  timers f := by
    obtain ⟨x, hx, hxle⟩ := h1.timers f
    obtain ⟨y, hy, hyle⟩ := h2.timers f
    refine ⟨y, by rw [hy, hx], ?_⟩
    rcases hyle with rfl | hyle
    · simpa [hx] using hxle
    · exact .inr (h1.config ▸ hyle)

theorem packetTx_sends {m : Mask} {p : Packet} {s t : State} (h : packetTx m p s = .ok t) : SendPath s t := by
  obtain ⟨frs, u, hfrs, rfl⟩ := packetTx_ok h
  obtain ⟨-, -, -, rfl⟩ | ⟨-, -, rfl⟩ := packetFrames_ok hfrs <;>
    exact ⟨rfl, ⟨_, rfl⟩, fun f => ⟨_, rfl, .inl rfl⟩⟩

theorem afterNow_sends (s : State) : SendPath s s.afterNow :=
  ⟨rfl, ⟨[], by simp⟩, fun f => ⟨(s.fc.get f).sendTimer, rfl, .inl rfl⟩⟩

theorem reschedule_sends (f : Face) (now : Timer) (s : State) : SendPath s (reschedule f now s) := by
  refine ⟨rfl, ⟨[], by simp [reschedule]⟩, fun g => ?_⟩
  by_cases hg : g = f
  · subst hg
    exact ⟨timerSet s.config now s.config.probeIntervalMs, by simp [reschedule], .inr (timerSet_le_never _ _ _)⟩
  · exact ⟨(s.fc.get g).sendTimer, by simp [reschedule, PerFace.get_set_of_ne _ _ hg], .inl rfl⟩

theorem sendFace_sends {f : Face} {s t : State} (h : sendFace f s = .ok t) : SendPath s t := by
  unfold sendFace at h
  split at h
  · split at h
    · cases h; exact ((afterNow_sends s).trans (packetTx_sends ‹_›)).trans (reschedule_sends _ _ _)
    · cases h
  · cases h; exact afterNow_sends s

theorem sendFaces_sends : ∀ (fs : List Face) {s t : State}, sendFaces fs s = .ok t → SendPath s t
  | [], s, t, h => by cases h; exact SendPath.refl s
  | f :: fs, s, t, h => by
    unfold sendFaces at h
    split at h
    · exact (sendFace_sends ‹_›).trans (sendFaces_sends fs h)
    · cases h

/-! ### What the receive path leaves (43 R180, 44 R207) -/

/-- What the receive path may do between two states (60 R242): it writes none of the application's registers, can of an
outbound slot only empty it, and stores nothing in an occupied inbound slot. -/
structure ReceivePath (s t : State) : Prop where
  frame : t = { s with
    rx := t.rx, fc := t.fc, dgIn := t.dgIn, dgOut := t.dgOut, hostEvents := t.hostEvents, samples := t.samples
    clock := t.clock, ticks := t.ticks, carrierLog := t.carrierLog, carrierRx := t.carrierRx }
  reports : ∃ es, t.hostEvents = s.hostEvents ++ es
  outValue : ∀ f, (t.fc.get f).outValue = (s.fc.get f).outValue
  shadow : ∀ f, (t.fc.get f).shadow = (s.fc.get f).shadow
  sequence : ∀ f, (t.fc.get f).header.sequence = (s.fc.get f).header.sequence
  postponeSleep : ∀ f, (t.fc.get f).header.postponeSleep = (s.fc.get f).header.postponeSleep
  outBytes : ∀ f, (t.dgOut.get f).bytes = (s.dgOut.get f).bytes
  outLen : ∀ f, (t.dgOut.get f).len = (s.dgOut.get f).len ∨ (t.dgOut.get f).len = 0
  inSlot : ∀ f, (s.dgIn.get f).len ≠ 0 → t.dgIn.get f = s.dgIn.get f

theorem ReceivePath.trans {s t u : State} (h1 : ReceivePath s t) (h2 : ReceivePath t u) : ReceivePath s u where
  frame := h2.frame.trans (by rw [h1.frame])
  reports := by
    obtain ⟨es, hes⟩ := h1.reports
    obtain ⟨es', hes'⟩ := h2.reports
    exact ⟨es ++ es', by rw [hes', hes, List.append_assoc]⟩
  outValue f := (h2.outValue f).trans (h1.outValue f)
  shadow f := (h2.shadow f).trans (h1.shadow f)
  sequence f := (h2.sequence f).trans (h1.sequence f)
  postponeSleep f := (h2.postponeSleep f).trans (h1.postponeSleep f)
  outBytes f := (h2.outBytes f).trans (h1.outBytes f)
  outLen f := (h2.outLen f).elim (fun h => h ▸ h1.outLen f) .inr
  inSlot f hf := by
    have h := h1.inSlot f hf
    rw [h2.inSlot f (by rwa [h]), h]

/-- An update that leaves the slots alone and the application's registers of the face channels is one the receive path may
make. -/
theorem ReceivePath.of_frame {s t : State}
    (frame : t = { s with
      rx := t.rx, fc := t.fc, hostEvents := t.hostEvents, samples := t.samples, clock := t.clock, ticks := t.ticks
      carrierLog := t.carrierLog, carrierRx := t.carrierRx })
    (reports : ∃ es, t.hostEvents = s.hostEvents ++ es)
    (channel : ∀ f, (t.fc.get f).outValue = (s.fc.get f).outValue ∧ (t.fc.get f).shadow = (s.fc.get f).shadow ∧
      (t.fc.get f).header.sequence = (s.fc.get f).header.sequence ∧
      (t.fc.get f).header.postponeSleep = (s.fc.get f).header.postponeSleep) : ReceivePath s t where
  frame := frame.trans (by rw [frame])
  reports := reports
  outValue f := (channel f).1
  shadow f := (channel f).2.1
  sequence f := (channel f).2.2.1
  postponeSleep f := (channel f).2.2.2
  outBytes f := by rw [frame]
  outLen f := .inl (by rw [frame])
  inSlot f _ := by rw [frame]

theorem ReceivePath.refl (s : State) : ReceivePath s s := .of_frame rfl ⟨[], by simp⟩ fun _ => ⟨rfl, rfl, rfl, rfl⟩

theorem packetRx_received (f : Face) (s : State) : ReceivePath s (packetRx f s).state := by
  rw [packetRx_frame]
  exact .of_frame rfl ⟨[], by simp⟩ fun _ => ⟨rfl, rfl, rfl, rfl⟩

theorem afterNow_received (s : State) : ReceivePath s s.afterNow :=
  .of_frame rfl ⟨[], by simp⟩ fun _ => ⟨rfl, rfl, rfl, rfl⟩

theorem notify_received (e : HostEvent) (s : State) : ReceivePath s (s.notify e) :=
  .of_frame rfl ⟨[e], rfl⟩ fun _ => ⟨rfl, rfl, rfl, rfl⟩

/-- A write of a face channel that keeps the application's registers. -/
theorem setFc_received (f : Face) {c : FaceChannel} {s : State} (hout : c.outValue = (s.fc.get f).outValue)
    (hshadow : c.shadow = (s.fc.get f).shadow) (hseq : c.header.sequence = (s.fc.get f).header.sequence)
    (hpp : c.header.postponeSleep = (s.fc.get f).header.postponeSleep) : ReceivePath s (s.setFc f c) := by
  refine .of_frame rfl ⟨[], by simp⟩ fun g => ?_
  rw [State.setFc_fc, PerFace.get_set]
  split
  · subst g; exact ⟨hout, hshadow, hseq, hpp⟩
  · exact ⟨rfl, rfl, rfl, rfl⟩

theorem refreshExpiry_received (f : Face) (now : Timer) (s : State) : ReceivePath s (refreshExpiry f now s) :=
  setFc_received f rfl rfl rfl rfl

theorem takeFaceValue_received (f : Face) (now : Timer) (v : Byte) (s : State) : ReceivePath s (takeFaceValue f now v s) :=
  setFc_received f rfl rfl rfl rfl

theorem freeOut_received (f : Face) (s : State) : ReceivePath s (s.setDgOut f (s.dgOut.get f).free) where
  frame := rfl
  reports := ⟨[], by simp⟩
  outValue _ := rfl
  shadow _ := rfl
  sequence _ := rfl
  postponeSleep _ := rfl
  outBytes g := by by_cases hg : g = f <;> simp [PerFace.get_set, hg]
  outLen g := by by_cases hg : g = f <;> simp [PerFace.get_set, hg]
  inSlot _ _ := rfl

theorem fillIn_received (f : Face) (sl : Slot) {s : State} (hempty : (s.dgIn.get f).len = 0) :
    ReceivePath s (s.setDgIn f sl) where
  frame := rfl
  reports := ⟨[], by simp⟩
  outValue _ := rfl
  shadow _ := rfl
  sequence _ := rfl
  postponeSleep _ := rfl
  outBytes _ := rfl
  outLen _ := .inl rfl
  inSlot g hg := by
    have hne : g ≠ f := fun h => hg (h ▸ hempty)
    simp [PerFace.get_set_of_ne _ _ hne]

theorem reportPostpone_received (f : Face) (h : Byte) (s : State) : ReceivePath s (reportPostpone f h s) := by
  unfold reportPostpone
  split
  · exact notify_received _ s
  · exact .refl s

theorem acknowledge_received (f : Face) (h : Byte) (s : State) : ReceivePath s (acknowledge f h s) := by
  unfold acknowledge
  split
  · exact freeOut_received f s
  · exact .refl s

theorem accepts_iff {f : Face} {h : Byte} {payload : List Byte} {s : State} :
    accepts f h payload s = true ↔
      1 ≤ payload.length ∧ headerSeq h ≠ (s.fc.get f).header.ackSequence ∧ (s.dgIn.get f).len = 0 := by
  simp [accepts, and_assoc, Slot.full_eq_false]

theorem accept_received (f : Face) (h : Byte) (payload : List Byte) (s : State) :
    ReceivePath s (accept f h payload s) := by
  unfold accept
  split
  next hacc =>
    obtain ⟨-, -, hempty⟩ := accepts_iff.mp hacc
    exact (fillIn_received f _ hempty).trans (setFc_received f rfl rfl rfl rfl)
  next => exact .refl s

theorem datagramReceive_received (f : Face) (h : Byte) (payload : List Byte) (s : State) :
    ReceivePath s (datagramReceive f h payload s) := by
  obtain hnone | ⟨-, -, hrules⟩ := datagramReceive_cases f h payload s
  · rw [hnone]; exact .refl s
  · rw [hrules]
    exact ((reportPostpone_received f h s).trans (acknowledge_received f h _)).trans (accept_received f h payload _)

theorem handlePacket_received (f : Face) (now : Timer) (p : Packet) (s : State) :
    ReceivePath s (handlePacket f now p s) := by
  unfold handlePacket
  split
  · exact notify_received _ s
  · split
    · exact takeFaceValue_received f now _ s
    · exact (takeFaceValue_received f now _ s).trans (datagramReceive_received f _ _ _)

theorem handleReceived_received (f : Face) (now : Timer) (saw : Bool) (pkt : Option Packet) (s : State) :
    ReceivePath s (handleReceived f now saw pkt s) := by
  have hexp : ReceivePath s (if saw then refreshExpiry f now s else s) := by
    split
    · exact refreshExpiry_received f now s
    · exact .refl s
  cases pkt with
  | none => exact hexp
  | some p => exact hexp.trans (handlePacket_received f now p _)

theorem receiveFace_received (f : Face) (s : State) : ReceivePath s (receiveFace f s) :=
  ((afterNow_received s).trans (packetRx_received f _)).trans (handleReceived_received f _ _ _ _)

theorem receiveFaces_received : ∀ (fs : List Face) (s : State), ReceivePath s (receiveFaces fs s)
  | [], s => .refl s
  | f :: fs, s => (receiveFace_received f s).trans (receiveFaces_received fs _)

/-- The visit of a face, and what it leaves to be treated, are within the receive path. -/
theorem visitFace_received (f : Face) (s : State) : ReceivePath s (visitFace f s).1 := by
  unfold visitFace
  simp only
  split
  · exact receiveFace_received f s
  · exact ((afterNow_received s).trans (packetRx_received f _)).trans (handleReceived_received f _ _ _ _)
  · exact packetRx_received f s
  · exact packetRx_received f s

theorem ReceivePath.config {s t : State} (h : ReceivePath s t) : t.config = s.config := by rw [h.frame]
theorem ReceivePath.txTrace {s t : State} (h : ReceivePath s t) : t.txTrace = s.txTrace := by rw [h.frame]
theorem ReceivePath.mainAt {s t : State} (h : ReceivePath s t) : t.mainAt = s.mainAt := by rw [h.frame]

end Sys2Proof.Machine

namespace Sys2Proof.Machine

/-! ### The invariant, by parts -/

/-- The part of the invariant that is about the faces. -/
def FacesInv (s : State) : Prop := ∀ f, s.faceInv f = true

theorem State.inv_iff (s : State) : s.inv = true ↔ FacesInv s ∧ ∀ p, s.mainAt = some p → p.ok s.config = true := by
  simp [State.inv, FacesInv, mem_allFaces, Option.all_eq_true]

theorem State.faceInv_iff {s : State} {f : Face} :
    s.faceInv f = true ↔ (s.rx.get f).mailboxOk = true ∧ (s.fc.get f).timersOk s.config = true ∧
      Memory.wf (s.dgIn.get f).bytes = true ∧ Memory.wf (s.dgOut.get f).bytes = true := by
  simp [State.faceInv, and_assoc]

theorem FaceChannel.timersOk_iff {cfg : Config} {c : FaceChannel} :
    c.timersOk cfg = true ↔ c.expireTimer ≤ neverOf cfg ∧ c.sendTimer ≤ neverOf cfg := by
  simp [FaceChannel.timersOk]

theorem FacesInv.mailbox {s : State} (h : FacesInv s) (f : Face) : (s.rx.get f).mailboxOk = true :=
  (State.faceInv_iff.mp (h f)).1

theorem FacesInv.timers {s : State} (h : FacesInv s) (f : Face) :
    (s.fc.get f).expireTimer ≤ neverOf s.config ∧ (s.fc.get f).sendTimer ≤ neverOf s.config :=
  FaceChannel.timersOk_iff.mp (State.faceInv_iff.mp (h f)).2.1

theorem FacesInv.wf_in {s : State} (h : FacesInv s) (f : Face) : Memory.wf (s.dgIn.get f).bytes = true :=
  (State.faceInv_iff.mp (h f)).2.2.1

theorem FacesInv.wf_out {s : State} (h : FacesInv s) (f : Face) : Memory.wf (s.dgOut.get f).bytes = true :=
  (State.faceInv_iff.mp (h f)).2.2.2

/-- An update that leaves the configuration, the face channels and the slots alone has only the mailboxes to answer for. -/
theorem FacesInv.of_rx {s t : State} (h : FacesInv s)
    (hframe : (t.config, t.fc, t.dgIn, t.dgOut) = (s.config, s.fc, s.dgIn, s.dgOut))
    (hrx : ∀ f, (t.rx.get f).mailboxOk = true) : FacesInv t := by
  simp only [Prod.mk.injEq] at hframe
  obtain ⟨hconfig, hfc, hin, hout⟩ := hframe
  intro f
  rw [State.faceInv_iff, hconfig, hfc, hin, hout]
  exact ⟨hrx f, (State.faceInv_iff.mp (h f)).2⟩

/-- One that leaves the receive registers alone too has nothing to answer for. -/
theorem FacesInv.congr {s t : State} (h : FacesInv s)
    (hframe : (t.config, t.fc, t.dgIn, t.dgOut) = (s.config, s.fc, s.dgIn, s.dgOut)) (hrx : t.rx = s.rx) : FacesInv t :=
  h.of_rx hframe fun f => by rw [hrx]; exact h.mailbox f

theorem FacesInv.transmit {s : State} (h : FacesInv s) (es : List TxEvent) : FacesInv (s.transmit es) :=
  h.congr rfl rfl

theorem FacesInv.setRx {s : State} (h : FacesInv s) (f : Face) {r : RxFace} (hr : r.mailboxOk = true) :
    FacesInv (s.setRx f r) :=
  h.of_rx rfl fun g => by
    rw [State.setRx_rx, PerFace.get_set]
    split
    · exact hr
    · exact h.mailbox g

theorem FacesInv.setFc {s : State} (h : FacesInv s) (f : Face) {c : FaceChannel} (hc : c.timersOk s.config = true) :
    FacesInv (s.setFc f c) := by
  intro g
  have hg := State.faceInv_iff.mp (h g)
  rw [State.faceInv_iff, State.setFc_fc, PerFace.get_set]
  exact ⟨hg.1, by split <;> [exact hc; exact hg.2.1], hg.2.2⟩

theorem FacesInv.setDgIn {s : State} (h : FacesInv s) (f : Face) {sl : Slot} (hsl : Memory.wf sl.bytes = true) :
    FacesInv (s.setDgIn f sl) := by
  intro g
  have hg := State.faceInv_iff.mp (h g)
  rw [State.faceInv_iff, State.setDgIn_dgIn, PerFace.get_set]
  exact ⟨hg.1, hg.2.1, by split <;> [exact hsl; exact hg.2.2.1], hg.2.2.2⟩

theorem FacesInv.setDgOut {s : State} (h : FacesInv s) (f : Face) {sl : Slot} (hsl : Memory.wf sl.bytes = true) :
    FacesInv (s.setDgOut f sl) := by
  intro g
  have hg := State.faceInv_iff.mp (h g)
  rw [State.faceInv_iff, State.setDgOut_dgOut, PerFace.get_set]
  exact ⟨hg.1, hg.2.1, hg.2.2.1, by split <;> [exact hsl; exact hg.2.2.2]⟩

/-! ### The updates of the operations keep it -/

theorem RxFace.mailboxOk_act {r : RxFace} (c : SampleClass) (h : r.mailboxOk = true) : (r.act c).mailboxOk = true := by
  rcases r.act_lastValue c with hv | ⟨v, hv⟩
  · simpa [mailboxOk, present, hv] using h
  · simp [mailboxOk, present, hv, deliveredForm_present]

theorem FacesInv.sampleAll {s : State} (h : FacesInv s) : FacesInv (sampleAll s) :=
  h.of_rx rfl fun f => by rw [sampleAll_rx_get]; exact RxFace.mailboxOk_step _ _ (h.mailbox f)

theorem FacesInv.preempt {s : State} (h : FacesInv s) : FacesInv (preempt s) :=
  h.of_rx (by rw [preempt_frame]) fun f => mailboxOk_preempt f s (h.mailbox f)

theorem FacesInv.takeData {s : State} (h : FacesInv s) (f : Face) : FacesInv (takeData f s) :=
  (h.setRx f (RxFace.mailboxOk_afterPoll (h.mailbox f))).congr rfl rfl

theorem FacesInv.sendPath {s t : State} (h : FacesInv s) (hs : SendPath s t) : FacesInv t := by
  intro f
  obtain ⟨x, hx, hxle⟩ := hs.timers f
  have hin : t.dgIn = s.dgIn := by rw [hs.frame]
  have hout : t.dgOut = s.dgOut := by rw [hs.frame]
  have hrx : t.rx = s.rx := by rw [hs.frame]
  rw [State.faceInv_iff, hin, hout, hrx, hs.config, hx, FaceChannel.timersOk_iff]
  exact ⟨h.mailbox f, ⟨(h.timers f).1, hxle.elim (· ▸ (h.timers f).2) id⟩, h.wf_in f, h.wf_out f⟩

/-- Writing a header or a value into a face channel, the timers untouched. -/
theorem FacesInv.setFc_of_timers {s : State} (h : FacesInv s) (f : Face) {c : FaceChannel}
    (hexp : c.expireTimer = (s.fc.get f).expireTimer) (hsend : c.sendTimer = (s.fc.get f).sendTimer) :
    FacesInv (s.setFc f c) :=
  h.setFc f (FaceChannel.timersOk_iff.mpr ⟨hexp ▸ (h.timers f).1, hsend ▸ (h.timers f).2⟩)

theorem FacesInv.refreshExpiry {s : State} (h : FacesInv s) (f : Face) (now : Timer) :
    FacesInv (refreshExpiry f now s) :=
  h.setFc f (FaceChannel.timersOk_iff.mpr ⟨timerSet_le_never _ _ _, (h.timers f).2⟩)

theorem FacesInv.takeFaceValue {s : State} (h : FacesInv s) (f : Face) (now : Timer) (v : Byte) :
    FacesInv (takeFaceValue f now v s) :=
  h.setFc f (FaceChannel.timersOk_iff.mpr ⟨(h.timers f).1, timerSet_le_never _ _ _⟩)

theorem FacesInv.reportPostpone {s : State} (h : FacesInv s) (f : Face) (b : Byte) : FacesInv (reportPostpone f b s) := by
  unfold Machine.reportPostpone
  split
  · exact h.congr rfl rfl
  · exact h

theorem FacesInv.acknowledge {s : State} (h : FacesInv s) (f : Face) (b : Byte) : FacesInv (acknowledge f b s) := by
  unfold Machine.acknowledge
  split
  · exact h.setDgOut f (h.wf_out f)
  · exact h

theorem FacesInv.accept {s : State} (h : FacesInv s) (f : Face) (b : Byte) {payload : List Byte}
    (hlen : payload.length ≤ 16) : FacesInv (accept f b payload s) := by
  unfold Machine.accept
  split
  · exact (h.setDgIn f (Slot.wf_fill (h.wf_in f) hlen)).setFc_of_timers f rfl rfl
  · exact h

theorem FacesInv.datagramReceive {s : State} (h : FacesInv s) (f : Face) (b : Byte) (payload : List Byte) :
    FacesInv (datagramReceive f b payload s) := by
  obtain hnone | ⟨-, hlen, hrules⟩ := datagramReceive_cases f b payload s
  · rwa [hnone]
  · rw [hrules]
    exact ((h.reportPostpone f b).acknowledge f b).accept f b hlen

theorem FacesInv.handlePacket {s : State} (h : FacesInv s) (f : Face) (now : Timer) (p : Packet) :
    FacesInv (handlePacket f now p s) := by
  unfold Machine.handlePacket
  split
  · exact h.congr rfl rfl
  · split
    · exact h.takeFaceValue f now _
    · exact (h.takeFaceValue f now _).datagramReceive f _ _

theorem FacesInv.handleReceived {s : State} (h : FacesInv s) (f : Face) (now : Timer) (saw : Bool)
    (pkt : Option Packet) : FacesInv (handleReceived f now saw pkt s) := by
  have hexp : FacesInv (if saw then Machine.refreshExpiry f now s else s) := by
    split
    · exact h.refreshExpiry f now
    · exact h
  cases pkt with
  | none => exact hexp
  | some p => exact hexp.handlePacket f now p

theorem FacesInv.afterNow {s : State} (h : FacesInv s) : FacesInv s.afterNow := h.congr rfl rfl

theorem FacesInv.packetRx {s : State} (h : FacesInv s) (f : Face) : FacesInv (packetRx f s).state :=
  h.of_rx (by rw [packetRx_frame]) fun g => mailboxOk_packetRx f g s h.mailbox

theorem FacesInv.receiveFace {s : State} (h : FacesInv s) (f : Face) : FacesInv (receiveFace f s) :=
  (h.afterNow.packetRx f).handleReceived f _ _ _

theorem FacesInv.receiveFaces : ∀ (fs : List Face) {s : State}, FacesInv s → FacesInv (receiveFaces fs s)
  | [], _, h => h
  | f :: fs, _, h => receiveFaces fs (h.receiveFace f)

theorem FacesInv.visitFace {s : State} (h : FacesInv s) (f : Face) : FacesInv (visitFace f s).1 := by
  unfold Machine.visitFace
  simp only
  split
  · exact h.receiveFace f
  · exact (h.afterNow.packetRx f).handleReceived f _ _ _
  · exact h.packetRx f
  · exact h.packetRx f

theorem canArm_iff {f : Face} {bytes : List Byte} {s : State} :
    canArm f bytes s = true ↔ (s.dgOut.get f).len = 0 ∧ 1 ≤ bytes.length ∧ bytes.length ≤ 16 := by
  simp [canArm, and_assoc, Slot.full_eq_false]

theorem FacesInv.arm {s : State} (h : FacesInv s) (f : Face) {bytes : List Byte} (hlen : bytes.length ≤ 16) :
    FacesInv (arm f bytes s) :=
  (h.setDgOut f (Slot.wf_fill (h.wf_out f) hlen)).setFc_of_timers f rfl rfl

/-- Every operation keeps the faces' part of the invariant. -/
theorem FacesInv.effect {s t : State} {i : Instr} (h : FacesInv s) (he : Effect s i t) : FacesInv t := by
  cases he with
  | outcome c f => exact h.setRx f (RxFace.mailboxOk_act c (h.mailbox f))
  | pulses i es hpart hop => exact h.transmit es
  | txByte m v => exact h.transmit _
  | txPacket m p t hsent => exact h.sendPath (packetTx_sends hsent)
  | sampleStep => exact h.sampleAll
  | irPoll f => exact (h.setRx f (RxFace.mailboxOk_afterPoll (h.mailbox f))).congr rfl rfl
  | takeData f => exact h.takeData f
  | holds f => exact h.congr rfl rfl
  | irReadErrors f => exact (h.setRx f (r := (s.rx.get f).clearErrors) (h.mailbox f)).congr rfl rfl
  | receiveStep => exact h.receiveFaces allFaces
  | sendStep t hsent => exact h.sendPath (sendFaces_sends allFaces hsent)
  | setOutgoingValue f v => exact h.setFc_of_timers f rfl rfl
  | setOutgoingValueAll v =>
    intro f
    rw [State.faceInv_iff, PerFace.get_ofFn]
    exact State.faceInv_iff.mp (h f)
  | answers i r hop => exact h.congr rfl rfl
  | answersFromClock i r hop => exact h.congr rfl rfl
  | didValueChange f r =>
    exact (h.setFc_of_timers f (c := { s.fc.get f with shadow := (s.fc.get f).inValue }) rfl rfl).congr rfl rfl
  | arms f bytes hcan => exact (h.arm f (canArm_iff.mp hcan).2.2).congr rfl rfl
  | consumes f => exact h.setDgIn f (h.wf_in f)
  | setPostponeSleep f b => exact h.setFc_of_timers f rfl rfl
  | header f b payload => exact h.datagramReceive f b payload
  | special i f c hrow => exact (h.afterNow.refreshExpiry f s.now).congr rfl rfl

/-- No operation writes the configuration or the place within an operation that runs in parts (log 1). -/
theorem Effect.control {s t : State} {i : Instr} (he : Effect s i t) : t.config = s.config ∧ t.mainAt = s.mainAt := by
  cases he with
  | txPacket m p t hsent => rw [(packetTx_sends hsent).frame]; exact ⟨rfl, rfl⟩
  | sendStep t hsent => rw [(sendFaces_sends allFaces hsent).frame]; exact ⟨rfl, rfl⟩
  | receiveStep => rw [(receiveFaces_received allFaces s).frame]; exact ⟨rfl, rfl⟩
  | header f b payload => rw [(datagramReceive_received f b payload s).frame]; exact ⟨rfl, rfl⟩
  | _ => exact ⟨rfl, rfl⟩

/-! ### Every step keeps the invariant and the configuration -/

theorem sendingDone_frame (after : Option SendRest) (s : State) :
    SendPath s { sendingDone after s with mainAt := s.mainAt } := by
  cases after with
  | none => exact SendPath.refl s
  | some r => exact reschedule_sends r.face r.now s

theorem sendingAt_sends (x : Option Transmission) (after : Option SendRest) (s : State) :
    SendPath s { sendingAt x after s with mainAt := s.mainAt } := by
  cases x with
  | none => exact sendingDone_frame after s
  | some x => exact SendPath.refl s

theorem FacesInv.sendingAt {s : State} (h : FacesInv s) (x : Option Transmission) (after : Option SendRest) :
    FacesInv (sendingAt x after s) :=
  (h.sendPath (sendingAt_sends x after s)).congr rfl rfl

theorem sendingAt_config (x : Option Transmission) (after : Option SendRest) (s : State) :
    (sendingAt x after s).config = s.config :=
  (sendingAt_sends x after s).config

theorem receiveVisit_received (fs : List Face) (s : State) :
    ReceivePath s { receiveVisit fs s with mainAt := s.mainAt } := by
  cases fs with
  | nil => exact .refl s
  | cons f fs =>
    rcases receiveVisit_cons f fs s with ⟨-, hv⟩ | ⟨r, -, -, hv⟩
    · have h := receiveFace_received f s
      rw [hv]; exact h.mainAt ▸ h
    · have h := visitFace_received f s
      rw [hv]; exact h.mainAt ▸ h

theorem FacesInv.receiveVisit {s : State} (h : FacesInv s) (fs : List Face) : FacesInv (receiveVisit fs s) := by
  cases fs with
  | nil => exact h.congr rfl rfl
  | cons f fs =>
    rcases receiveVisit_cons f fs s with ⟨-, hv⟩ | ⟨r, -, -, hv⟩
    · rw [hv]; exact (h.receiveFace f).congr rfl rfl
    · rw [hv]; exact (h.visitFace f).congr rfl rfl

theorem receiveVisit_config (fs : List Face) (s : State) : (receiveVisit fs s).config = s.config :=
  (receiveVisit_received fs s).config

theorem Stepped.config {s t : State} (h : Stepped s t) : t.config = s.config := by
  cases h with
  | holdsOn => rw [preempt_frame]
  | takesHeld f => exact (congrArg State.config (preempt_frame s) :)
  | runs i rest t hpart hdoes hexec => exact (exec_effect hexec).control.1
  | handsOver rest frs after u hu hmask => rw [sendingAt_config, hu]
  | sends rest x after hat hdoes => exact sendingAt_config _ _ _
  | receives rest fs hdoes => exact receiveVisit_config _ _
  | treats rest r fs t hdoes hexec => exact (exec_effect hexec).control.1
  | _ => rfl

/-- Settles O4: a step leaves the configuration in each of its forms. -/
theorem stepKeepsTheConfiguration : Obligations.StepKeepsTheConfiguration :=
  fun _ _ h => (step_stepped h).config

theorem Stepped.facesInv {s t : State} (h : Stepped s t) (hs : FacesInv s) : FacesInv t := by
  have hagenda : ∀ rest : List Action, FacesInv { s with agenda := rest } := fun _ => hs.congr rfl rfl
  have hplace : ∀ (rest : List Action) (p : Option MainPosition), FacesInv { s with agenda := rest, mainAt := p } :=
    fun _ _ => hs.congr rfl rfl
  cases h with
  | samplerEnds hat => exact hs.congr rfl rfl
  | shifts f b p hat => exact (hs.setRx f (r := (s.rx.get f).shift b) (hs.mailbox f)).congr rfl rfl
  | acts c f p hat => exact (hs.setRx f (RxFace.mailboxOk_act c (hs.mailbox f))).congr rfl rfl
  | holdsOn => exact hs.preempt
  | takesHeld f => exact hs.preempt.takeData f
  | samples rest => exact (hagenda rest).sampleAll
  | beginsSampling rest => exact hs.congr rfl rfl
  | proceedsIdle rest => exact hs.congr rfl rfl
  | runs i rest t hpart hdoes hexec => exact (hagenda rest).effect (exec_effect hexec)
  | beginsSendStep rest => exact hplace rest _
  | beginsReceiveStep rest => exact hplace rest _
  | handsOver rest frs after u hu hmask => exact FacesInv.sendingAt (hs.congr (by rw [hu]) (by rw [hu])) _ _
  | sends rest x after hat hdoes => exact ((hagenda rest).transmit _).sendingAt _ _
  | skipsFace rest fs => exact hs.congr rfl rfl
  | sendStepEnds rest => exact hplace rest _
  | receives rest fs hdoes => exact (hagenda rest).receiveVisit fs
  | treats rest r fs t hdoes hexec => exact FacesInv.effect (hplace rest _) (exec_effect hexec)

/-! ### Where the main loop can stand -/

/-- The main loop is where an operation can have taken it, the second part of the invariant. -/
def PlaceOk (s : State) : Prop := ∀ p, s.mainAt = some p → p.ok s.config = true

theorem PlaceOk.of_none {s : State} (h : s.mainAt = none) : PlaceOk s := fun p hp => by simp [h] at hp

theorem PlaceOk.congr {s t : State} (h : PlaceOk s) (hm : t.mainAt = s.mainAt) (hc : t.config = s.config) : PlaceOk t := by
  unfold PlaceOk
  rw [hm, hc]; exact h

theorem sendStepAt_ok {fs : List Face} {cfg : Config} : ∀ p, sendStepAt fs = some p → p.ok cfg = true := by
  rintro p hp; cases fs <;> cases hp; rfl

theorem receiveStepAt_ok {fs : List Face} {cfg : Config} : ∀ p, receiveStepAt fs = some p → p.ok cfg = true := by
  rintro p hp; cases fs <;> cases hp; rfl

theorem placeOk_sendingDone (after : Option SendRest) (s : State) : PlaceOk (sendingDone after s) := by
  cases after with
  | none => exact .of_none rfl
  | some r => exact fun p hp => sendStepAt_ok p hp

theorem placeOk_sendingAt {x : Option Transmission} (hx : ∀ y ∈ x, y.ok = true) (after : Option SendRest) (s : State) :
    PlaceOk (sendingAt x after s) := by
  cases x with
  | none => exact placeOk_sendingDone after s
  | some x => rintro p ⟨⟩; exact hx x rfl

theorem Transmission.start_ok {frs : List Frame} (hmask : ∀ fr ∈ frs, fr.mask ≠ 0) :
    ∀ y ∈ Transmission.start frs, y.ok = true := by
  cases frs with
  | nil => rintro y ⟨⟩
  | cons fr frs => rintro y ⟨⟩; simpa [Transmission.ok] using hmask

/-- Under the reference carrier a packet is a face value alone, so nothing is left to be treated (30 R101). -/
theorem partOf_faceOnly {f : Face} {s : State} (hc : s.config.carrier = .faceOnly) :
    partOf f (packetRx f s).saw (packetRx f s).packet = none := by
  simp only [packetRx, hc]
  cases ((preempt s).rx.get f).pollValue <;> simp [partOf, isSpecial]

theorem visitFace_faceOnly {f : Face} {s : State} (hc : s.config.carrier = .faceOnly) : (visitFace f s).2 = none := by
  have hp : partOf f (packetRx f s.afterNow).saw (packetRx f s.afterNow).packet = none := partOf_faceOnly hc
  simp only [visitFace, hp]

theorem placeOk_receiveVisit (fs : List Face) (s : State) : PlaceOk (receiveVisit fs s) := by
  intro p hp
  rw [receiveVisit_config]
  cases fs with
  | nil => cases hp
  | cons f fs =>
    rcases receiveVisit_cons f fs s with ⟨-, hv⟩ | ⟨r, hr, -, hv⟩
    · rw [hv] at hp; exact receiveStepAt_ok p hp
    · rw [hv] at hp; cases hp
      cases hc : s.config.carrier with
      | faceOnly => rw [visitFace_faceOnly hc] at hr; cases hr
      | uninterpreted => simp [MainPosition.ok, hc]

theorem Stepped.placeOk {s t : State} (h : Stepped s t) (hs : PlaceOk s) : PlaceOk t := by
  cases h with
  | holdsOn => exact hs.congr (by rw [preempt_frame]) (by rw [preempt_frame])
  | takesHeld f =>
    exact hs.congr (congrArg State.mainAt (preempt_frame s) :) (congrArg State.config (preempt_frame s) :)
  | runs i rest t hpart hdoes hexec =>
    obtain ⟨hc, hm⟩ := (exec_effect hexec).control
    exact hs.congr hm hc
  | beginsSendStep rest => exact fun p hp => sendStepAt_ok (fs := allFaces) p hp
  | beginsReceiveStep rest => exact fun p hp => receiveStepAt_ok (fs := allFaces) p hp
  | handsOver rest frs after u hu hmask => exact placeOk_sendingAt (Transmission.start_ok hmask) after u
  | sends rest x after hat hdoes =>
    exact placeOk_sendingAt (fun y hy => (Transmission.next_ok (hs _ hat) hy).1) after _
  | skipsFace rest fs => exact fun p hp => sendStepAt_ok p hp
  | sendStepEnds rest => exact .of_none rfl
  | receives rest fs hdoes => exact placeOk_receiveVisit fs _
  | treats rest r fs t hdoes hexec =>
    obtain ⟨hc, hm⟩ := (exec_effect hexec).control
    intro p hp
    rw [hm] at hp
    exact receiveStepAt_ok p hp
  | _ => exact hs

/-- Settles O3: both parts of the invariant are kept by each form of a step. -/
theorem stepKeepsTheInvariant : Obligations.StepKeepsTheInvariant := by
  intro s t hs h
  obtain ⟨hfaces, hplace⟩ := s.inv_iff.mp hs
  exact t.inv_iff.mpr ⟨(step_stepped h).facesInv hfaces, (step_stepped h).placeOk hplace⟩

end Sys2Proof.Machine

namespace Sys2Proof

/-! ### Decoding what was encoded (file 30) -/

theorem faceOk_iff {f : Nat} : faceOk f = true ↔ f < 6 := by simp [faceOk]

theorem maskOk_iff {m : Mask} : maskOk m = true ↔ m ≠ 0 := by simp [maskOk]

theorem phyOk_iff {v : Byte} : phyOk v = true ↔ v.toNat < 128 := by simp [phyOk]

/-- A face operand fits its byte. -/
theorem encodeFace_toNat {f : Nat} (hf : faceOk f = true) : (encodeFace f).toNat = f := by
  have h := faceOk_iff.mp hf
  simp only [encodeFace, BitVec.toNat_ofNat]
  omega

@[simp] theorem decodeMask_encodeMask (m : Mask) : decodeMask (encodeMask m) = .ok m := by
  revert m; decide

/-- 30 R81: the sample word of a class is one of its own. -/
theorem classify_word (c : SampleClass) : classify Config.dropoutDefault c.word = c := by
  cases c <;> decide

theorem decode_encodeSample (c : SampleClass) {f : Nat} (hf : faceOk f = true) :
    decode (encodeSample c f) = .ok (c.instr f) := by
  simp only [encodeSample, decode, decodeSample, classify_word, encodeFace_toNat hf]

/-- A call with a face operand gives the face back. -/
theorem decodeFaceCall_encodeFace (k : Nat → Instr) {f : Nat} (hf : faceOk f = true) :
    decodeFaceCall k [encodeFace f] = .ok (k f) := by
  simp only [decodeFaceCall, decodeUnary, encodeFace_toNat hf]

/-- 30 R87: a frame carries the parity bit that fits its value. -/
theorem parityGood_parityBit (v : Phy) : parityGood v (parityBit v) = true := by
  revert v; decide

theorem frameByte_value (v : Phy) : (frameByte v).extractLsb' 1 7 = v := by
  revert v; decide

theorem frameByte_parity (v : Phy) : (frameByte v).getLsbD 0 = parityBit v := by
  revert v; decide

theorem decodeFrame_frameByte (m : Mask) (v : Phy) :
    decodeFrame [frameByte v, encodeMask m] = .ok (.txByte m (v.setWidth 8)) := by
  simp only [decodeFrame, decodeMask_encodeMask, frameByte_value, frameByte_parity, parityGood_parityBit, if_true]

/-- A PHY byte is its low seven bits (42 R156). -/
theorem setWidth_setWidth_of_phyOk {v : Byte} (hv : phyOk v = true) : (v.setWidth 7).setWidth 8 = v := by
  have h := phyOk_iff.mp hv
  apply BitVec.eq_of_toNat_eq
  simp only [BitVec.toNat_setWidth]
  omega

theorem decodeBit_ofBool (b : Bool) : decodeBit (if b then 1 else 0) = .ok b := by
  cases b <;> rfl

/-- Settles O5: each format gives its operands back, a sample word its class, a frame its value by the parity bit, a face
and a mask themselves from their byte. -/
theorem decodeOfEncodeIsIdentity : Obligations.DecodeOfEncodeIsIdentity := by
  intro i hi
  cases i with
  | symZero f => exact decode_encodeSample .zero hi
  | symOneAdj f => exact decode_encodeSample .oneAdj hi
  | symOneSkew f => exact decode_encodeSample .oneSkew hi
  | symSync f => exact decode_encodeSample .sync hi
  | rxDropout f => exact decode_encodeSample .dropout hi
  | rxNoise1011 f => exact decode_encodeSample .noise1011 hi
  | rxNoise1101 f => exact decode_encodeSample .noise1101 hi
  | rxNoise10101 f => exact decode_encodeSample .noise10101 hi
  | rxNone f => exact decode_encodeSample .nothing hi
  | txsSync m => simp [encode, decode, decodePulseGroup]
  | txsZero m => simp [encode, decode, decodePulseGroup]
  | txsOne m => simp [encode, decode, decodePulseGroup]
  | txByte m v =>
    simp only [Instr.wellFormed, Bool.and_eq_true] at hi
    rw [encode, decode, decodeFrame_frameByte, setWidth_setWidth_of_phyOk hi.2]
  | txPacket m bytes => simp [encode, decode, decodeCall, decodeList, Except.map]
  | sampleStep => rfl
  | irPoll f => exact decodeFaceCall_encodeFace _ hi
  | irGetData f => exact decodeFaceCall_encodeFace _ hi
  | irReadErrors f => exact decodeFaceCall_encodeFace _ hi
  | receiveStep => rfl
  | sendStep => rfl
  | setOutgoingValue f v => simp [encode, decode, decodeCall, decodeFaceByte, encodeFace_toNat hi]
  | setOutgoingValueAll v => rfl
  | getIncomingValue f => exact decodeFaceCall_encodeFace _ hi
  | didValueChange f => exact decodeFaceCall_encodeFace _ hi
  | isExpired f => exact decodeFaceCall_encodeFace _ hi
  | isAlone => rfl
  | sendDatagram f bytes =>
    simp only [Instr.wellFormed, Bool.and_eq_true] at hi
    simp only [encode, decode, decodeCall, decodeList, encodeFace_toNat hi.1]
  | isDatagramPending f => exact decodeFaceCall_encodeFace _ hi
  | isDatagramReady f => exact decodeFaceCall_encodeFace _ hi
  | datagramLength f => exact decodeFaceCall_encodeFace _ hi
  | getDatagram f => exact decodeFaceCall_encodeFace _ hi
  | consumeDatagram f => exact decodeFaceCall_encodeFace _ hi
  | setPostponeSleep f b =>
    simp only [encode, decode, decodeCall, decodeFaceByte, encodeFace_toNat hi, decodeBit_ofBool, Except.map]
  | enterSleep => rfl
  | notifyActivity => rfl
  | header f h payload => simp only [encode, decode, decodeHeader, encodeFace_toNat hi]
  | specialSleep f => simp [encode, decode, decodePacket, encodeFace_toNat hi]
  | specialWake f => simp [encode, decode, decodePacket, encodeFace_toNat hi]

end Sys2Proof

namespace Sys2Proof.Machine

/-! ### A face fed a word of samples (40 R112, R113) -/

/-- The shift register after a sample (40 R112). -/
def shiftIn (B : Byte) (b : Bool) : Byte := (B <<< 1) ||| (BitVec.ofBool b).setWidth 8

/-- The shift register after a word of samples, the first one oldest. -/
def shiftAll (B : Byte) (w : List Bool) : Byte := w.foldl shiftIn B

/-- The outcomes other than `RX_NONE` while a word of samples is shifted in, with the default dropout length. -/
def outcomes : Byte → List Bool → List SampleClass
  | _, [] => []
  | B, b :: w => ([classify 8 (shiftIn B b)].filter (· != .nothing)) ++ outcomes (shiftIn B b) w

/-- A face after a word of samples, with the default dropout length. -/
def RxFace.feed (r : RxFace) (w : List Bool) : RxFace := w.foldl (fun r b => r.step 8 b) r

/-- A face after a list of outcomes. -/
def RxFace.actAll (r : RxFace) (cs : List SampleClass) : RxFace := cs.foldl (fun r c => r.act c) r

theorem shiftAll_append (B : Byte) (u w : List Bool) : shiftAll B (u ++ w) = shiftAll (shiftAll B u) w :=
  List.foldl_append

theorem outcomes_append : ∀ (u : List Bool) (B : Byte) (w : List Bool),
    outcomes B (u ++ w) = outcomes B u ++ outcomes (shiftAll B u) w
  | [], _, _ => rfl
  | b :: u, B, w => by
    simp only [List.cons_append, outcomes, outcomes_append u, List.append_assoc]
    rfl

theorem RxFace.feed_append (r : RxFace) (u w : List Bool) : r.feed (u ++ w) = (r.feed u).feed w := List.foldl_append

theorem RxFace.actAll_append (r : RxFace) (cs ds : List SampleClass) :
    r.actAll (cs ++ ds) = (r.actAll cs).actAll ds := List.foldl_append

/-- A face with another value in the shift register. -/
def RxFace.withBitstream (r : RxFace) (B : Byte) : RxFace := { r with bitstream := B }

@[simp] theorem RxFace.withBitstream_searching (r : RxFace) (B : Byte) :
    (r.withBitstream B).searching = r.searching := rfl
@[simp] theorem RxFace.withBitstream_sevenBits (r : RxFace) (B : Byte) :
    (r.withBitstream B).sevenBits = r.sevenBits := rfl
@[simp] theorem RxFace.withBitstream_dataBits (r : RxFace) (B : Byte) :
    (r.withBitstream B).dataBits = r.dataBits := rfl
@[simp] theorem RxFace.withBitstream_present (r : RxFace) (B : Byte) : (r.withBitstream B).present = r.present := rfl

theorem RxFace.deliver_withBitstream (v : Phy) (r : RxFace) (B : Byte) :
    (r.withBitstream B).deliver v = (r.deliver v).withBitstream B := by
  rw [deliver, deliver, withBitstream_present]
  split <;> rfl

theorem RxFace.endFrame_withBitstream (bit : Bool) (r : RxFace) (B : Byte) :
    (r.withBitstream B).endFrame bit = (r.endFrame bit).withBitstream B := by
  rw [endFrame, endFrame, withBitstream_dataBits]
  split
  · exact deliver_withBitstream r.dataBits { r with inputBuffer := 0x00 } B
  · rfl

theorem RxFace.onBit_withBitstream (bit : Bool) (r : RxFace) (B : Byte) :
    (r.withBitstream B).onBit bit = (r.onBit bit).withBitstream B := by
  rw [onBit, onBit, withBitstream_searching, withBitstream_sevenBits]
  split
  · rfl
  · split
    · exact endFrame_withBitstream bit r B
    · rfl

/-- An outcome does not see the shift register. -/
theorem RxFace.act_withBitstream (c : SampleClass) (r : RxFace) (B : Byte) :
    (r.withBitstream B).act c = (r.act c).withBitstream B := by
  have hdropout : (r.withBitstream B).onDropout = r.onDropout.withBitstream B := by
    rw [onDropout, onDropout, withBitstream_searching]
    split <;> rfl
  have hnoise : (r.withBitstream B).onNoise = r.onNoise.withBitstream B := by
    rw [onNoise, onNoise, withBitstream_searching]
    split <;> rfl
  cases c with
  | zero => exact onBit_withBitstream false r B
  | oneAdj => exact onBit_withBitstream true r B
  | oneSkew => exact onBit_withBitstream true r B
  | sync => rfl
  | dropout => exact hdropout
  | noise1011 => exact hnoise
  | noise1101 => exact hnoise
  | noise10101 => exact hnoise
  | nothing => rfl

theorem RxFace.actAll_withBitstream (B : Byte) : ∀ (cs : List SampleClass) (r : RxFace),
    (r.withBitstream B).actAll cs = (r.actAll cs).withBitstream B
  | [], _ => rfl
  | c :: cs, r => by
    have h : (r.withBitstream B).actAll (c :: cs) = ((r.withBitstream B).act c).actAll cs := rfl
    rw [h, act_withBitstream, actAll_withBitstream B cs]
    rfl

theorem RxFace.step_eq_act (r : RxFace) (b : Bool) :
    r.step 8 b = (r.act (classify 8 (shiftIn r.bitstream b))).withBitstream (shiftIn r.bitstream b) :=
  act_withBitstream _ r _

theorem RxFace.actAll_filter_nothing (r : RxFace) (c : SampleClass) :
    r.actAll ([c].filter (· != .nothing)) = r.act c := by
  cases c <;> rfl

/-- What a word of samples does to a face: its outcomes, and the shift. -/
theorem RxFace.feed_eq_actAll : ∀ (w : List Bool) (r : RxFace),
    r.feed w = (r.actAll (outcomes r.bitstream w)).withBitstream (shiftAll r.bitstream w)
  | [], _ => rfl
  | b :: w, r => by
    have hfeed : r.feed (b :: w) = (r.step 8 b).feed w := rfl
    rw [hfeed, feed_eq_actAll w, step_eq_act, actAll_withBitstream, outcomes, actAll_append, actAll_filter_nothing]
    rfl

/-! ### Silence and gaps -/

/-- No value whose newest sample is 0 is a sync. -/
theorem classify_zero_sample : ∀ B : Byte, classify 8 (shiftIn B false) ≠ .sync := by
  decide

theorem RxFace.act_of_searching {r : RxFace} (h : r.inputBuffer = 0) {c : SampleClass} (hc : c ≠ .sync) : r.act c = r := by
  have hs : r.searching = true := by simp [searching, h]
  cases c <;> simp [act, onBit, onDropout, onNoise, hs] at hc ⊢

/-- Silence is nothing to a searching face (40 R119, 41 R131). -/
theorem RxFace.feed_silence : ∀ (w : List Bool) (r : RxFace), IsSilence w → r.inputBuffer = 0 →
    r.feed w = r.withBitstream (shiftAll r.bitstream w)
  | [], _, _, _ => rfl
  | b :: w, r, hw, hr => by
    obtain rfl : b = false := hw b List.mem_cons_self
    have hfeed : r.feed (false :: w) = (r.step 8 false).feed w := rfl
    rw [hfeed, step_eq_act, act_of_searching hr (classify_zero_sample r.bitstream),
      feed_silence w (r.withBitstream (shiftIn r.bitstream false)) (fun b hb => hw b (List.mem_cons_of_mem _ hb)) hr]
    rfl

/-- The register in the gap between two symbols: the two newest windows are empty, and not all eight are. -/
def Gapped (B : Byte) : Prop := B &&& 3 = 0 ∧ B ≠ 0

/-- In a gap nothing happens until all eight windows are empty. -/
theorem classify_gap : ∀ B : Byte, B &&& 3 = 0 → B <<< 1 ≠ 0 →
    classify 8 (shiftIn B false) = .nothing ∧ shiftIn B false = B <<< 1 ∧ B <<< 1 &&& 3 = 0 := by
  decide

theorem outcomes_gap : ∀ (k : Nat) (B : Byte), B &&& 3 = 0 → B <<< k ≠ 0 →
    outcomes B (List.replicate k false) = [] ∧ Gapped (shiftAll B (List.replicate k false))
  | 0, B, h3, hk => ⟨rfl, h3, by rwa [BitVec.shiftLeft_zero] at hk⟩
  | k + 1, B, h3, hk => by
    rw [Nat.add_comm, BitVec.shiftLeft_add] at hk
    have h1 : B <<< 1 ≠ 0 := fun h => hk (by simp [h])
    obtain ⟨hc, hB, h3'⟩ := classify_gap B h3 h1
    have ih := outcomes_gap k (B <<< 1) h3' hk
    rw [← hB] at ih
    rw [List.replicate_succ, outcomes, hc]
    exact ih

/-- The pulses of a symbol and two empty windows, then up to five more: the gap of 42 R162 adds no outcome. -/
theorem outcomes_symbol {B : Byte} {a : List Bool} {k : Nat} (hk : k < 6) {cs : List SampleClass}
    (ha : outcomes B (a ++ [false, false]) = cs)
    (hgap : shiftAll B (a ++ [false, false]) &&& 3 = 0 ∧ shiftAll B (a ++ [false, false]) <<< 5 ≠ 0) :
    outcomes B (a ++ List.replicate (k + 2) false) = cs ∧ Gapped (shiftAll B (a ++ List.replicate (k + 2) false)) := by
  obtain ⟨h3, h5⟩ := hgap
  have hk0 : shiftAll B (a ++ [false, false]) <<< k ≠ 0 := by
    intro h
    rw [show 5 = k + (5 - k) by omega, BitVec.shiftLeft_add, h] at h5
    simp at h5
  obtain ⟨hnone, hgapped⟩ := outcomes_gap k _ h3 hk0
  have hsplit : a ++ List.replicate (k + 2) false = (a ++ [false, false]) ++ List.replicate k false := by
    rw [Nat.add_comm, List.replicate_add, List.append_assoc]; rfl
  rw [hsplit, outcomes_append, shiftAll_append B (a ++ [false, false]), ha, hnone, List.append_nil]
  exact ⟨rfl, hgapped⟩

/-! ### The symbols of a frame, seen through the nominal channel (42 R162) -/

/-- The class of samples a bit symbol is received as, by the spacing of its flashes. -/
def IsBitClass (bit : Bool) (c : SampleClass) : Prop := c = .zero ∧ bit = false ∨ (c = .oneAdj ∨ c = .oneSkew) ∧ bit = true

theorem RxFace.act_of_isBitClass {bit : Bool} {c : SampleClass} (h : IsBitClass bit c) (r : RxFace) :
    r.act c = r.onBit bit := by
  obtain ⟨rfl, rfl⟩ | ⟨rfl | rfl, rfl⟩ := h <;> rfl

/-- The flashes of a 0-bit behind a gap. -/
theorem outcomes_zero : ∀ B : Byte, B &&& 3 = 0 → B ≠ 0 → outcomes B ([true] ++ [false, false]) = [.zero] ∧
    shiftAll B ([true] ++ [false, false]) &&& 3 = 0 ∧ shiftAll B ([true] ++ [false, false]) <<< 5 ≠ 0 := by
  decide

/-- The flashes of a 1-bit in adjacent windows behind a gap. -/
theorem outcomes_oneAdj : ∀ B : Byte, B &&& 3 = 0 → B ≠ 0 →
    outcomes B ([true, true] ++ [false, false]) = [.oneAdj] ∧
    shiftAll B ([true, true] ++ [false, false]) &&& 3 = 0 ∧ shiftAll B ([true, true] ++ [false, false]) <<< 5 ≠ 0 := by
  decide

/-- The flashes of a 1-bit one window apart behind a gap. -/
theorem outcomes_oneSkew : ∀ B : Byte, B &&& 3 = 0 → B ≠ 0 →
    outcomes B ([true, false, true] ++ [false, false]) = [.oneSkew] ∧
    shiftAll B ([true, false, true] ++ [false, false]) &&& 3 = 0 ∧
    shiftAll B ([true, false, true] ++ [false, false]) <<< 5 ≠ 0 := by
  decide

theorem isImage_append : ∀ (es : List TxEvent) {fs : List TxEvent} {w : List Bool}, IsImage (es ++ fs) w →
    ∃ u v, w = u ++ v ∧ IsImage es u ∧ IsImage fs v
  | [], _, w, h => ⟨[], w, rfl, rfl, h⟩
  | e :: es, fs, w, h => by
    obtain ⟨a, b, ha, rfl, hb⟩ := h
    obtain ⟨u, v, rfl, hu, hv⟩ := isImage_append es hb
    exact ⟨a ++ u, v, by rw [List.append_assoc], ⟨a, u, ha, rfl, hu⟩, hv⟩

/-- The image of a pulse group: one of its pulse's images, then two to seven empty windows. -/
theorem isImage_group {m : Mask} {n p d : Nat} {w : List Bool} (h : IsImage [.pulse m n p, .idle d] w) :
    ∃ a ∈ eventImages (.pulse m n p), ∃ k < 6, w = a ++ List.replicate (k + 2) false := by
  obtain ⟨a, b, ha, rfl, b', c, hb, rfl, rfl⟩ := h
  obtain ⟨k, hk, rfl⟩ := List.mem_map.mp hb
  exact ⟨a, ha, k, List.mem_range.mp hk, by rw [List.append_nil]⟩

/-- Behind a gap, the image of a bit symbol has the one outcome of that bit, and leaves a gap. -/
theorem outcomes_bitGroup {cfg : Config} {m : Mask} {bit : Bool} {w : List Bool} {B : Byte} (hB : Gapped B)
    (h : IsImage (bitGroup cfg m bit) w) :
    ∃ c, IsBitClass bit c ∧ outcomes B w = [c] ∧ Gapped (shiftAll B w) := by
  obtain ⟨a, ha, k, hk, rfl⟩ := isImage_group h
  obtain ⟨h3, h0⟩ := hB
  cases bit with
  | false =>
    obtain rfl : a = [true] := by simpa [eventImages] using ha
    obtain ⟨hc, hgap⟩ := outcomes_zero B h3 h0
    exact ⟨.zero, .inl ⟨rfl, rfl⟩, outcomes_symbol hk hc hgap⟩
  | true =>
    obtain rfl | rfl : a = [true, true] ∨ a = [true, false, true] := by simpa [eventImages] using ha
    · obtain ⟨hc, hgap⟩ := outcomes_oneAdj B h3 h0
      exact ⟨.oneAdj, .inr ⟨.inl rfl, rfl⟩, outcomes_symbol hk hc hgap⟩
    · obtain ⟨hc, hgap⟩ := outcomes_oneSkew B h3 h0
      exact ⟨.oneSkew, .inr ⟨.inr rfl, rfl⟩, outcomes_symbol hk hc hgap⟩

/-- A face after a list of bits (41 R130). -/
def RxFace.onBits (r : RxFace) (bits : List Bool) : RxFace := bits.foldl (fun r b => r.onBit b) r

/-- Behind a gap, the image of bit symbols is taken bit by bit. -/
theorem RxFace.actAll_bitGroups {cfg : Config} {m : Mask} : ∀ (bits : List Bool) {w : List Bool} {B : Byte} (r : RxFace),
    Gapped B → IsImage (bits.flatMap (bitGroup cfg m)) w → r.actAll (outcomes B w) = r.onBits bits
  | [], w, B, r, _, h => by
    obtain rfl : w = [] := h
    rfl
  | bit :: bits, w, B, r, hB, h => by
    obtain ⟨u, v, rfl, hu, hv⟩ := isImage_append _ h
    obtain ⟨c, hc, hout, hgap⟩ := outcomes_bitGroup hB hu
    rw [outcomes_append, hout, actAll_append, actAll_bitGroups bits _ hgap hv]
    simp [actAll, onBits, act_of_isBitClass hc]

/-! ### The sync of a frame -/

/-- The three noise patterns (40 R121). -/
def isNoise (c : SampleClass) : Bool := c == .noise1011 || c == .noise1101 || c == .noise10101

/-- What a sync's flashes are received as: perhaps noise at first, then syncs. -/
def IsSyncOutcomes (cs : List SampleClass) : Prop := ∃ n, cs.dropWhile isNoise = .sync :: List.replicate n .sync

/-- Whatever the register holds, three flashes are perhaps noise at first and then syncs. -/
theorem outcomes_threeOnes : ∀ B : Byte, (∃ n < 3, (outcomes B [true, true, true]).dropWhile isNoise =
    .sync :: List.replicate n .sync) ∧ shiftAll B [true, true, true] &&& 7 = 7 := by
  decide

/-- A fourth flash is a sync again. -/
theorem outcomes_anotherOne : ∀ B : Byte, B &&& 7 = 7 → outcomes B [true] = [.sync] ∧ shiftIn B true &&& 7 = 7 := by
  decide

/-- The first two empty windows behind a sync are no outcome. -/
theorem outcomes_afterSync : ∀ B : Byte, B &&& 7 = 7 → outcomes B [false, false] = [] ∧
    shiftAll B [false, false] &&& 3 = 0 ∧ shiftAll B [false, false] <<< 5 ≠ 0 := by
  decide

theorem isSyncOutcomes_append {cs : List SampleClass} (h : IsSyncOutcomes cs) : IsSyncOutcomes (cs ++ [.sync]) := by
  obtain ⟨n, hn⟩ := h
  refine ⟨n + 1, ?_⟩
  rw [List.dropWhile_append, hn]
  simp [List.replicate_succ']

/-- The flashes of a sync, whatever the register holds. -/
theorem outcomes_syncFlashes (B : Byte) {a : List Bool} (ha : a = [true, true, true] ∨ a = [true, true, true, true]) :
    IsSyncOutcomes (outcomes B a) ∧ shiftAll B a &&& 7 = 7 := by
  obtain ⟨⟨n, -, hn⟩, h7⟩ := outcomes_threeOnes B
  rcases ha with rfl | rfl
  · exact ⟨⟨n, hn⟩, h7⟩
  · obtain ⟨hone, h7'⟩ := outcomes_anotherOne _ h7
    have hsplit : [true, true, true, true] = [true, true, true] ++ [true] := rfl
    rw [hsplit, outcomes_append, shiftAll_append, hone]
    exact ⟨isSyncOutcomes_append ⟨n, hn⟩, h7'⟩

/-- Whatever the register holds, the image of a sync is perhaps noise at first and then syncs, and leaves a gap. -/
theorem outcomes_syncGroup {cfg : Config} {m : Mask} {w : List Bool} (B : Byte) (h : IsImage (syncGroup cfg m) w) :
    IsSyncOutcomes (outcomes B w) ∧ Gapped (shiftAll B w) := by
  obtain ⟨a, ha, k, hk, rfl⟩ := isImage_group h
  obtain ⟨hsync, h7⟩ := outcomes_syncFlashes B (a := a) (by simpa [eventImages] using ha)
  obtain ⟨hnone, hgap⟩ := outcomes_afterSync _ h7
  rw [← shiftAll_append] at hgap
  obtain ⟨hout, hgapped⟩ := outcomes_symbol hk (outcomes_append a B _) hgap
  rw [hnone, List.append_nil] at hout
  exact ⟨hout ▸ hsync, hgapped⟩

/-- What noise can do to a face: end a frame in progress, with its flag. -/
structure AtMostNoise (r r' : RxFace) : Prop where
  lastValue : r'.lastValue = r.lastValue
  errorBits : r'.errorBits = r.errorBits ∨ r'.errorBits = r.errorBits ||| 0b1000
  searching : r.inputBuffer = 0 → r'.inputBuffer = 0 ∧ r'.errorBits = r.errorBits

theorem RxFace.act_noise {c : SampleClass} (hc : isNoise c = true) (r : RxFace) : r.act c = r.onNoise := by
  cases c with
  | noise1011 => rfl
  | noise1101 => rfl
  | noise10101 => rfl
  | _ => cases hc

theorem RxFace.actAll_noise : ∀ (cs : List SampleClass) (r : RxFace), (∀ c ∈ cs, isNoise c = true) →
    AtMostNoise r (r.actAll cs)
  | [], r, _ => ⟨rfl, .inl rfl, fun h => ⟨h, rfl⟩⟩
  | c :: cs, r, hcs => by
    have ih := actAll_noise cs r.onNoise fun c hc => hcs c (List.mem_cons_of_mem _ hc)
    have hact : r.actAll (c :: cs) = r.onNoise.actAll cs := by
      rw [← act_noise (hcs c List.mem_cons_self) r]; rfl
    rw [hact]
    cases hs : r.searching with
    | true =>
      have hr : r.onNoise = r := by simp [onNoise, hs]
      rwa [hr] at ih ⊢
    | false =>
      have hr : r.onNoise = r.raise .noise := by simp [onNoise, hs]
      rw [hr] at ih ⊢
      refine ⟨ih.lastValue, .inr (ih.searching rfl).2, fun h => ?_⟩
      simp [RxFace.searching, h] at hs

theorem RxFace.actAll_syncs (r : RxFace) : ∀ n : Nat,
    r.actAll (.sync :: List.replicate n .sync) = { r with inputBuffer := 1 }
  | 0 => rfl
  | n + 1 => by
    have h : r.actAll (.sync :: List.replicate (n + 1) .sync) =
        ({ r with inputBuffer := 1 } : RxFace).actAll (.sync :: List.replicate n .sync) := rfl
    rw [h, actAll_syncs _ n]

theorem RxFace.actAll_bitstream (cs : List SampleClass) (r : RxFace) : (r.actAll cs).bitstream = r.bitstream :=
  (congrArg RxFace.bitstream (actAll_withBitstream r.bitstream cs r) :)

/-- A sync leaves the sentinel, whatever was before; of a frame in progress at most the noise flag remains. -/
theorem RxFace.actAll_isSyncOutcomes {cs : List SampleClass} (h : IsSyncOutcomes cs) (r : RxFace) :
    ∃ e, (e = r.errorBits ∨ e = r.errorBits ||| 0b1000) ∧ (r.inputBuffer = 0 → e = r.errorBits) ∧
      r.actAll cs = { r with inputBuffer := 1, errorBits := e } := by
  obtain ⟨n, hn⟩ := h
  have hnoise := actAll_noise (cs.takeWhile isNoise) r fun c hc => List.mem_takeWhile_imp hc
  have hbit := actAll_bitstream (cs.takeWhile isNoise) r
  rw [← List.takeWhile_append_dropWhile (p := isNoise) (l := cs), actAll_append, hn, actAll_syncs]
  refine ⟨_, hnoise.errorBits, fun h => (hnoise.searching h).2, ?_⟩
  rw [hnoise.lastValue, hbit]

/-! ### The bits of a frame -/

/-- The seven data bits of a frame in sending order (30 R86). -/
def dataBitList (v : Phy) : List Bool := [v[6], v[5], v[4], v[3], v[2], v[1], v[0]]

theorem frameBits_eq (v : Phy) : frameBits v = dataBitList v ++ [parityBit v] := rfl

/-- Odd parity as a sum modulo 2. -/
def oddOnes (bits : List Bool) : Bool := bits.foldr Bool.xor false

theorem oddOnes_modify : ∀ (bits : List Bool) (k : Nat), k < bits.length →
    oddOnes (bits.modify k (fun b => !b)) = !oddOnes bits
  | b :: bits, 0, _ => by cases b <;> simp [oddOnes]
  | b :: bits, k + 1, h => by
    have ih := oddOnes_modify bits k (by simpa using h)
    simp only [oddOnes] at ih ⊢
    simp [ih]

theorem oddOnes_dataBitList : ∀ (v : Phy) (p : Bool), oddOnes (dataBitList v ++ [p]) = parityGood v p := by
  decide

/-- Every seven bits are the data bits of a value. -/
theorem dataBitList_ofBoolListBE : ∀ b6 b5 b4 b3 b2 b1 b0 : Bool,
    dataBitList (BitVec.ofBoolListBE [b6, b5, b4, b3, b2, b1, b0]) = [b6, b5, b4, b3, b2, b1, b0] := by
  decide

/-- Eight bits are the frame of some value with some parity bit. -/
theorem eq_dataBitList_append {bits : List Bool} (h : bits.length = 8) : ∃ u p, bits = dataBitList u ++ [p] := by
  match bits, h with
  | [b6, b5, b4, b3, b2, b1, b0, p], _ => exact ⟨_, p, congrArg (· ++ [p]) (dataBitList_ofBoolListBE ..).symm⟩

/-- Flipping one symbol of a frame makes it the frame of some value with the wrong parity bit (42 R163 (b)). -/
theorem frameBits_modify (v : Phy) {k : Nat} (hk : k < 8) : ∃ (u : Phy) (p : Bool),
    (frameBits v).modify k (fun b => !b) = dataBitList u ++ [p] ∧ parityGood u p = false := by
  obtain ⟨u, p, hu⟩ := eq_dataBitList_append (bits := (frameBits v).modify k fun b => !b) (by simp [frameBits])
  refine ⟨u, p, hu, ?_⟩
  rw [← oddOnes_dataBitList, ← hu, oddOnes_modify _ _ (by simpa [frameBits] using hk), frameBits_eq,
    oddOnes_dataBitList, parityGood_parityBit]
  rfl

/-- The buffer as the seven data bits come in, from the sentinel (41 R132). -/
def bufferAfter (bits : List Bool) : Byte := bits.foldl shiftIn 1

theorem RxFace.onBit_open {r : RxFace} (h0 : r.inputBuffer ≠ 0) (h7 : r.inputBuffer.getLsbD 7 = false) (b : Bool) :
    r.onBit b = { r with inputBuffer := shiftIn r.inputBuffer b } := by
  have hs : r.searching = false := by simpa [searching] using h0
  have h7' : r.sevenBits = false := h7
  simp [onBit, hs, h7', shiftIn]

theorem RxFace.onBits_open : ∀ (bits : List Bool) (r : RxFace),
    (∀ n < bits.length, (bits.take n).foldl shiftIn r.inputBuffer ≠ 0 ∧
      ((bits.take n).foldl shiftIn r.inputBuffer).getLsbD 7 = false) →
    r.onBits bits = { r with inputBuffer := bits.foldl shiftIn r.inputBuffer }
  | [], _, _ => rfl
  | b :: bits, r, h => by
    obtain ⟨h0, h7⟩ := h 0 (Nat.zero_lt_succ _)
    have hcons : r.onBits (b :: bits) = (r.onBit b).onBits bits := rfl
    rw [hcons, onBit_open h0 h7, onBits_open bits]
    · rfl
    · intro n hn
      exact h (n + 1) (Nat.succ_lt_succ hn)

/-- Before the eighth bit the sentinel is in none of the places 7 or above. -/
theorem bufferAfter_open : ∀ v : Phy, ∀ n < 7, bufferAfter ((dataBitList v).take n) ≠ 0 ∧
    (bufferAfter ((dataBitList v).take n)).getLsbD 7 = false := by
  decide

/-- After seven bits the sentinel is in bit 7 and the value below it (41 R133). -/
theorem bufferAfter_dataBitList : ∀ v : Phy, (bufferAfter (dataBitList v)).getLsbD 7 = true ∧
    (bufferAfter (dataBitList v)).setWidth 7 = v := by
  decide

theorem RxFace.onBits_append (r : RxFace) (bs cs : List Bool) : r.onBits (bs ++ cs) = (r.onBits bs).onBits cs :=
  List.foldl_append

/-- From the sentinel, eight bits end the frame: the value is delivered when the parity bit fits it, else discarded. -/
theorem RxFace.onBits_frame {r : RxFace} (hr : r.inputBuffer = 1) (v : Phy) (p : Bool) :
    r.onBits (dataBitList v ++ [p]) =
      if parityGood v p then ({ r with inputBuffer := 0 } : RxFace).deliver v
      else ({ r with inputBuffer := 0 } : RxFace).raise .parity := by
  obtain ⟨h7, hv⟩ := bufferAfter_dataBitList v
  have hseven : r.onBits (dataBitList v) = { r with inputBuffer := bufferAfter (dataBitList v) } := by
    rw [onBits_open _ _ (by rw [hr]; exact bufferAfter_open v), hr]
    rfl
  have hs : ({ r with inputBuffer := bufferAfter (dataBitList v) } : RxFace).searching = false := by
    cases hs : ({ r with inputBuffer := bufferAfter (dataBitList v) } : RxFace).searching
    · rfl
    · have h0 : bufferAfter (dataBitList v) = 0 := beq_iff_eq.mp hs
      rw [h0] at h7; cases h7
  rw [onBits_append, hseven]
  simp only [onBits, List.foldl_cons, List.foldl_nil, onBit, hs, sevenBits, h7, endFrame, dataBits, hv, if_true]
  rfl

/-! ### Frames through the nominal channel (42 R163) -/

/-- The image of a sync and eight bit symbols: the frame they make is delivered or discarded. -/
theorem RxFace.feed_frame {cfg : Config} {m : Mask} {v : Phy} {p : Bool} {w : List Bool} (r : RxFace)
    (h : IsImage (syncGroup cfg m ++ (dataBitList v ++ [p]).flatMap (bitGroup cfg m)) w) :
    ∃ e, (e = r.errorBits ∨ e = r.errorBits ||| 0b1000) ∧ (r.inputBuffer = 0 → e = r.errorBits) ∧
      r.feed w = (if parityGood v p then ({ r with inputBuffer := 0, errorBits := e } : RxFace).deliver v
        else ({ r with inputBuffer := 0, errorBits := e } : RxFace).raise .parity).withBitstream
          (shiftAll r.bitstream w) := by
  obtain ⟨u, x, rfl, hu, hx⟩ := isImage_append _ h
  obtain ⟨hout, hgap⟩ := outcomes_syncGroup r.bitstream hu
  obtain ⟨e, he, hsearch, hsync⟩ := actAll_isSyncOutcomes hout r
  refine ⟨e, he, hsearch, ?_⟩
  rw [feed_eq_actAll, outcomes_append, actAll_append, hsync,
    actAll_bitGroups _ _ hgap hx, onBits_frame rfl]

@[simp] theorem RxFace.deliver_inputBuffer (v : Phy) {r : RxFace} (hr : r.inputBuffer = 0) :
    (r.deliver v).inputBuffer = 0 := by
  unfold deliver
  split
  · rfl
  · exact hr

theorem RxFace.deliver_errorBits (v : Phy) (r : RxFace) :
    (r.deliver v).errorBits = if r.present then r.errorBits ||| 0b0001 else r.errorBits := by
  unfold deliver
  split <;> rfl

end Sys2Proof.Machine

namespace Sys2Proof.Machine

/-! ### Runs -/

theorem Core.run_succ_of_step {M : Host.Core} {s t : M.State} (h : M.step s = .next t) (n : Nat) :
    M.run (n + 1) s = M.run n t := by
  rw [Host.Core.run, h]

theorem Core.run_one (M : Host.Core) (s : M.State) : M.run 1 s = M.step s := by
  simp only [Host.Core.run]
  cases M.step s <;> rfl

/-- A run of `m + n` steps is one of `m` and then one of `n`. -/
theorem Core.run_add {M : Host.Core} {t : M.State} (n : Nat) : ∀ {m : Nat} {s : M.State}, M.run m s = .next t →
    M.run (m + n) s = M.run n t
  | 0, s, h => by cases h; rw [Nat.zero_add]
  | m + 1, s, h => by
    cases hs : M.step s with
    | next u =>
      rw [run_succ_of_step hs] at h
      rw [Nat.succ_add, run_succ_of_step hs, run_add n h]
    | fault r => rw [Host.Core.run, hs] at h; cases h
    | refused r => rw [Host.Core.run, hs] at h; cases h

theorem run_of_step {s t : State} (h : step s = .next t) (n : Nat) :
    Host.Core.run core (n + 1) s = Host.Core.run core n t :=
  Core.run_succ_of_step (M := core) h n

theorem run_one (s : State) : Host.Core.run core 1 s = step s := Core.run_one core s

theorem run_add {s t : State} {m : Nat} (n : Nat) (h : Host.Core.run core m s = .next t) :
    Host.Core.run core (m + n) s = Host.Core.run core n t :=
  Core.run_add (M := core) n h

/-! ### An idle machine samples (log 1) -/

theorem State.idle_iff (s : State) : s.idle = true ↔ s.agenda = [] ∧ s.ready = true := by
  simp [State.idle]

theorem run_idle : ∀ (n : Nat) (s : State), usable s.config → s.idle = true →
    Host.Core.run core n s = .next (sampleTimes n s)
  | 0, _, _, _ => rfl
  | n + 1, s, hc, hi => by
    obtain ⟨ha, hr⟩ := s.idle_iff.mp hi
    have hstep : step s = .next (sampleAll s) := step_of_nothing_pending hc hr ha
    rw [run_of_step hstep, run_idle n (sampleAll s) hc hi]
    rfl

/-- The samples given to a machine are fed to each face. -/
theorem sampleTimes_feed (f : Face) : ∀ (q : List Mask) (s : State), s.config.dropoutZeroSamples = 8 → s.samples.queue = q →
    (sampleTimes q.length s).rx.get f = (s.rx.get f).feed (q.map fun x => x.getLsbD f.val)
  | [], _, _, _ => rfl
  | x :: q, s, h8, hq => by
    have hx : s.sample = x := by simp [State.sample, Feed.peek, hq]
    have hrest : (sampleAll s).samples.queue = q := by simp [sampleAll, Feed.advance, hq]
    have hlen : sampleTimes (x :: q).length s = sampleTimes q.length (sampleAll s) := rfl
    rw [hlen, sampleTimes_feed f q (sampleAll s) h8 hrest, sampleAll_rx_get, h8, hx]
    rfl

/-- An idle machine runs through the samples given, and each face is fed with its own. -/
theorem run_feed {s : State} {f : Face} {w : List Bool} (hc : usable s.config) (h8 : s.config.dropoutZeroSamples = 8)
    (hi : s.idle = true) (hq : s.samples.queue.map (fun x => x.getLsbD f.val) = w) :
    ∃ t, Host.Core.run core w.length s = .next t ∧ t.rx.get f = (s.rx.get f).feed w := by
  subst hq
  rw [List.length_map]
  exact ⟨_, run_idle _ s hc hi, sampleTimes_feed f _ s h8 rfl⟩

/-! ### The round trip (42 R163) -/

/-- A frame sent through the nominal channel, and silence behind it, delivers its value. -/
theorem RxFace.feed_sentFrame {cfg : Config} {m : Mask} {v : Phy} {w c : List Bool} (r : RxFace)
    (hw : IsImage (frameTrace cfg m v) w) (hc : IsSilence c) :
    ∃ e B, (e = r.errorBits ∨ e = r.errorBits ||| 0b1000) ∧ (r.inputBuffer = 0 → e = r.errorBits) ∧
      r.feed (w ++ c) = ⟨B, 0, deliveredForm v, if r.present then e ||| 0b0001 else e⟩ := by
  obtain ⟨e, he, hs, hfeed⟩ := feed_frame r (v := v) (p := parityBit v) hw
  rw [parityGood_parityBit, if_pos rfl] at hfeed
  refine ⟨e, shiftAll (r.feed w).bitstream c, he, hs, ?_⟩
  rw [feed_append, feed_silence c _ hc (by rw [hfeed]; exact deliver_inputBuffer v rfl), hfeed]
  simp only [withBitstream, deliver_inputBuffer, deliver_errorBits]
  rfl

/-- A frame with one symbol sent as the other bit is discarded, silence behind it or not. -/
theorem RxFace.feed_corruptedFrame {cfg : Config} {m : Mask} {v : Phy} {k : Nat} {w c : List Bool} (r : RxFace)
    (hk : k < 8) (hw : IsImage (corruptedTrace cfg m v k) w) (hc : IsSilence c) :
    ∃ e B, (r.inputBuffer = 0 → e = r.errorBits) ∧ r.feed (w ++ c) = ⟨B, 0, r.lastValue, e ||| 0b0010⟩ := by
  obtain ⟨u, p, hup, hbad⟩ := frameBits_modify v hk
  rw [corruptedTrace, hup] at hw
  obtain ⟨e, -, hs, hfeed⟩ := feed_frame r hw
  rw [hbad, if_neg Bool.false_ne_true] at hfeed
  refine ⟨e, shiftAll (r.feed w).bitstream c, hs, ?_⟩
  rw [feed_append, feed_silence c _ hc (by rw [hfeed]; rfl), hfeed]
  rfl

/-- A searching face fed frames and silence ends with the last value, overflow telling that one was not taken. -/
theorem RxFace.feed_link {cfg : Config} {m : Mask} : ∀ (vs : List Phy) {w : List Bool} (r : RxFace), r.inputBuffer = 0 →
    IsLinkImage (vs.map (frameTrace cfg m)) w →
    (r.feed w).inputBuffer = 0 ∧
    (r.feed w).lastValue = (match vs.getLast? with | some v => deliveredForm v | none => r.lastValue) ∧
    (r.feed w).errorBits =
      if (r.present = true ∧ 1 ≤ vs.length) ∨ 2 ≤ vs.length then r.errorBits ||| 0b0001 else r.errorBits
  | [], w, r, hr, hw => by
    rw [feed_silence w r hw hr]
    exact ⟨hr, rfl, by simp [withBitstream]⟩
  | v :: vs, w, r, hr, hw => by
    obtain ⟨a, b, c, ha, hb, hc, rfl⟩ := hw
    have hquiet := feed_silence a r ha hr
    obtain ⟨e, B, -, hs, hframe⟩ := feed_sentFrame (c := []) (r.feed a) hb (fun _ h => by simp at h)
    rw [hquiet] at hs
    obtain rfl : e = r.errorBits := hs hr
    have hpresent : (r.feed a).present = r.present := by rw [hquiet]; rfl
    rw [List.append_nil, hpresent] at hframe
    have ih := feed_link vs (⟨B, 0, deliveredForm v, if r.present then r.errorBits ||| 0b0001 else r.errorBits⟩ : RxFace)
      rfl hc
    rw [feed_append, feed_append, hframe]
    obtain ⟨hib, hlast, herr⟩ := ih
    refine ⟨hib, ?_, ?_⟩
    · rw [hlast, List.getLast?_cons]
      cases vs.getLast? <;> rfl
    · have hp : (⟨B, 0, deliveredForm v, if r.present then r.errorBits ||| 0b0001 else r.errorBits⟩ : RxFace).present =
          true := deliveredForm_present v
      rw [herr, hp]
      cases hr' : r.present <;> cases vs <;> simp [BitVec.or_assoc]

/-- Settles O20: an idle machine feeds the samples to the face, where frames and silence do what `RxFace.feed_sentFrame` and
`RxFace.feed_link` say. -/
theorem frameRoundTripThroughTheMachine : Obligations.FrameRoundTripThroughTheMachine := by
  intro s cfg m f hc h8 hi hempty
  have hpresent : (s.rx.get f).present = false := by simp [RxFace.present, hempty]
  refine ⟨fun v w c hw hsilent hq => ?single, fun vs w hw hq hs => ?link⟩
  case single =>
    obtain ⟨t, hrun, ht⟩ := run_feed hc h8 hi hq
    obtain ⟨e, B, he, hsearch, hfeed⟩ := RxFace.feed_sentFrame (s.rx.get f) hw hsilent
    rw [hpresent] at hfeed
    rw [hfeed] at ht
    exact ⟨t, hrun, by rw [ht]; rfl, by rw [ht], fun h => by rw [ht]; exact hsearch h, by rw [ht]; exact he⟩
  case link =>
    obtain ⟨t, hrun, ht⟩ := run_feed hc h8 hi hq
    obtain ⟨hbuffer, hlast, herr⟩ := RxFace.feed_link vs (s.rx.get f) hs hw
    refine ⟨t, hrun, ?_, by rw [ht, hbuffer], ?_⟩
    · rw [ht, hlast, hempty]
      cases vs.getLast? <;> rfl
    · rw [ht, herr, hpresent]
      simp

/-- Settles O21: an idle machine feeds the samples to the face, which discards the frame. -/
theorem corruptedFrameIsAParityError : Obligations.CorruptedFrameIsAParityError := by
  intro s cfg m v k f w c hk hc h8 hi hw hsilent hq
  obtain ⟨t, hrun, ht⟩ := run_feed hc h8 hi hq
  obtain ⟨e, B, hsearch, hfeed⟩ := RxFace.feed_corruptedFrame (s.rx.get f) hk hw hsilent
  rw [hfeed] at ht
  exact ⟨t, hrun, by rw [ht], by rw [ht]; simp, by rw [ht], fun h => by rw [ht, hsearch h]⟩

end Sys2Proof.Machine

namespace Sys2Proof.Machine

/-! ### Reset (10 R47) -/

theorem Header.reset_toByte : Header.reset.toByte = 0b10000000 := by decide

/-- Settles O1: the reset state is written out field by field, and the header byte is that of the fields. -/
theorem resetLeavesTheSpecsValues : Obligations.ResetLeavesTheSpecsValues := by
  refine ⟨rfl, rfl, rfl, rfl, rfl, rfl, rfl, rfl, rfl, rfl, fun cfg f => ?_⟩
  have hfc : (State.resetWith cfg).fc.get f = FaceChannel.reset (cfg.sendStaggerMs.get f) := PerFace.get_ofFn _ f
  have hin : (State.resetWith cfg).dgIn.get f = Slot.reset := PerFace.get_ofFn _ f
  have hout : (State.resetWith cfg).dgOut.get f = Slot.reset := PerFace.get_ofFn _ f
  rw [hfc, hin, hout]
  exact ⟨rfl, PerFace.get_ofFn _ f, rfl, rfl, rfl, rfl, Header.reset_toByte, rfl, rfl, rfl, rfl⟩

/-- Settles O2: after reset the mailboxes and the buffers are empty, and a stagger is a number of 32 bits. -/
theorem resetSatisfiesTheInvariant : Obligations.ResetSatisfiesTheInvariant := by
  refine State.reset.inv_iff.mpr ⟨fun f => ?_, fun p hp => by cases hp⟩
  have hstagger : (Config.openStaggerMs f).toNat ≤ neverOf Config.default :=
    Nat.le_sub_one_of_lt (Config.openStaggerMs f).isLt
  rw [State.faceInv_iff]
  simp only [State.reset, State.resetWith, PerFace.get_ofFn, Config.default]
  exact ⟨rfl, FaceChannel.timersOk_iff.mpr ⟨Nat.zero_le _, hstagger⟩, rfl, rfl⟩

/-! ### The outcomes of the pattern match on one face (40 R115 to R121) -/

theorem RxFace.searching_eq_false {r : RxFace} : r.searching = false ↔ r.inputBuffer ≠ 0 := beq_eq_false_iff_ne

theorem RxFace.onDropout_of_frame {r : RxFace} (h : r.inputBuffer ≠ 0) : r.onDropout = r.raise .dropout := by
  rw [onDropout, searching_eq_false.mpr h]; rfl

theorem RxFace.onNoise_of_frame {r : RxFace} (h : r.inputBuffer ≠ 0) : r.onNoise = r.raise .noise := by
  rw [onNoise, searching_eq_false.mpr h]; rfl

/-- An outcome that leaves the face as it is leaves the state as it is. -/
theorem exec_outcome_of_act_eq {c : SampleClass} {f : Face} {s : State} (h : (s.rx.get f).act c = s.rx.get f) :
    exec (c.instr f.val) s = .next s := by
  rw [exec_outcome, State.onRx_eq, h, State.setRx, PerFace.set_get_self]

/-- Settles O11: the outcome of a sync is one write, whatever the buffer held. -/
theorem syncRestartsTheFrame : Obligations.SyncRestartsTheFrame :=
  fun f s => exec_outcome .sync f s

/-- Settles O12: dropout and noise raise their flag while a frame is in progress. -/
theorem dropoutAndNoiseAbortTheFrame : Obligations.DropoutAndNoiseAbortTheFrame := by
  intro f s hframe
  have hnoise : ∀ c, isNoise c = true → exec (c.instr f.val) s = .next (s.setRx f ((s.rx.get f).raise .noise)) := by
    intro c hc
    rw [exec_outcome, State.onRx_eq, RxFace.act_noise hc, RxFace.onNoise_of_frame hframe]
  refine ⟨?dropout, List.forall_mem_cons.mpr ⟨hnoise .noise1011 rfl, List.forall_mem_cons.mpr
    ⟨hnoise .noise1101 rfl, List.forall_mem_singleton.mpr (hnoise .noise10101 rfl)⟩⟩⟩
  case dropout =>
    have h := exec_outcome .dropout f s
    rw [State.onRx_eq, RxFace.act, RxFace.onDropout_of_frame hframe] at h
    exact h

/-- Settles O13: to a searching face every outcome but a sync is nothing, and `RX_NONE` is nothing to any face. -/
theorem noSymbolChangesNothing : Obligations.NoSymbolChangesNothing := by
  intro f s
  refine ⟨exec_outcome_of_act_eq (c := .nothing) rfl, fun hsearching => ?_⟩
  have hnothing : ∀ c : SampleClass, c ≠ .sync → exec (c.instr f.val) s = .next s :=
    fun c hc => exec_outcome_of_act_eq (RxFace.act_of_searching hsearching hc)
  simp only [List.forall_mem_cons, List.not_mem_nil, false_implies, implies_true, and_true]
  exact ⟨hnothing .dropout (by decide), hnothing .noise1011 (by decide), hnothing .noise1101 (by decide),
    hnothing .noise10101 (by decide)⟩

/-- Settles O14: a bit symbol is no sync. -/
theorem bitSymbolWhileSearchingIsIgnored : Obligations.BitSymbolWhileSearchingIsIgnored := by
  intro f s hsearching
  have hnothing : ∀ c : SampleClass, c ≠ .sync → exec (c.instr f.val) s = .next s :=
    fun c hc => exec_outcome_of_act_eq (RxFace.act_of_searching hsearching hc)
  simp only [List.forall_mem_cons, List.not_mem_nil, false_implies, implies_true, and_true]
  exact ⟨hnothing .zero (by decide), hnothing .oneAdj (by decide), hnothing .oneSkew (by decide)⟩

/-- The three bit symbols, each with a name for its bit, take that bit into the face. -/
theorem exec_bitSymbol {α : Type} {zero one : α} {f : Face} {p : Instr × α}
    (hp : p ∈ [(Instr.symZero f.val, zero), (Instr.symOneAdj f.val, one), (Instr.symOneSkew f.val, one)]) (s : State) :
    ∃ bit : Bool, p.2 = (if bit then one else zero) ∧ exec p.1 s = .next (s.setRx f ((s.rx.get f).onBit bit)) := by
  simp only [List.mem_cons, List.not_mem_nil, or_false] at hp
  obtain rfl | rfl | rfl := hp
  · exact ⟨false, rfl, exec_outcome .zero f s⟩
  · exact ⟨true, rfl, exec_outcome .oneAdj f s⟩
  · exact ⟨true, rfl, exec_outcome .oneSkew f s⟩

/-- Settles O15: below the sentinel a bit is shifted in. -/
theorem bitSymbolShiftsInADataBit : Obligations.BitSymbolShiftsInADataBit := by
  intro f s hframe hopen p hp
  obtain ⟨bit, hbit, hexec⟩ := exec_bitSymbol hp s
  rw [hexec, hbit, RxFace.onBit_open hframe hopen]
  cases bit <;> rfl

theorem RxFace.onBit_sevenBits {r : RxFace} (h7 : r.inputBuffer.getLsbD 7 = true) (bit : Bool) :
    r.onBit bit = r.endFrame bit := by
  have hs : r.searching = false := by
    rw [searching_eq_false]
    intro h0
    rw [h0] at h7; cases h7
  have h7' : r.sevenBits = true := h7
  simp [onBit, hs, h7']

theorem parityGood_eq (v : Phy) (p : Bool) : parityGood v p = decide ((popcount v + p.toNat) % 2 = 1) := by
  unfold parityGood
  rfl

/-- A delivery to a face whose frame has ended (41 R134). -/
theorem RxFace.deliver_eq (v : Phy) {r : RxFace} (h : r.inputBuffer = 0) :
    r.deliver v = { r with
      lastValue := deliveredForm v, errorBits := if r.present then r.errorBits ||| 0b0001 else r.errorBits } := by
  obtain ⟨b, i, l, e⟩ := r
  cases h
  unfold deliver
  split <;> rfl

/-- The stored form of the seven data bits is the buffer with the sentinel's bit set (30 R89). -/
theorem deliveredForm_setWidth : ∀ b : Byte, deliveredForm (b.setWidth 7) = 0x80 ||| b := by
  decide

/-- The number of a bit symbol is the bit as a number. -/
theorem toNat_eq_of_bit {bit : Bool} {n : Nat} (h : n = if bit then 1 else 0) : n = bit.toNat := by
  cases bit <;> exact h

/-- Settles O16: the frame ends with its value in the mailbox, and overflow tells that one was there. -/
theorem goodParityDeliversTheValue : Obligations.GoodParityDeliversTheValue := by
  intro f s h7 p hp hodd
  obtain ⟨bit, hbit, hexec⟩ := exec_bitSymbol hp s
  rw [toNat_eq_of_bit hbit] at hodd
  have hgood : parityGood (s.rx.get f).dataBits bit = true := by rw [parityGood_eq]; exact decide_eq_true hodd
  have hend : (s.rx.get f).endFrame bit =
      { s.rx.get f with
        inputBuffer := 0x00
        lastValue := 0x80 ||| (s.rx.get f).inputBuffer
        errorBits := if (s.rx.get f).lastValue.getLsbD 7 then (s.rx.get f).errorBits ||| 0b0001
          else (s.rx.get f).errorBits } := by
    rw [← deliveredForm_setWidth, RxFace.endFrame, if_pos hgood]
    exact RxFace.deliver_eq _ rfl
  rw [hexec, RxFace.onBit_sevenBits h7, hend]
  rfl

/-- Settles O17: the frame ends with the parity flag. -/
theorem badParityDiscardsTheFrame : Obligations.BadParityDiscardsTheFrame := by
  intro f s h7 p hp heven
  obtain ⟨bit, hbit, hexec⟩ := exec_bitSymbol hp s
  rw [toNat_eq_of_bit hbit] at heven
  have hbad : parityGood (s.rx.get f).dataBits bit = false := by
    rw [parityGood_eq]
    exact decide_eq_false fun hodd => by simp [RxFace.dataBits] at hodd; omega
  rw [hexec, RxFace.onBit_sevenBits h7, RxFace.endFrame, hbad]
  rfl

/-! ### The consumer's operations (41 R140 to R143) -/

theorem exec_irPoll (f : Face) (s : State) : exec (.irPoll f.val) s =
    .next ((s.setRx f (s.rx.get f).afterPoll).returns (.poll (s.rx.get f).pollValue)) := by
  simp only [exec, execIrPoll, withFace_val, State.onRx_eq]

theorem exec_irGetData (f : Face) (s : State) : exec (.irGetData f.val) s =
    .next (if (s.rx.get f).present then takeData f s else { s with hold := some f }) := by
  simp only [exec, execIrGetData, withFace_val]

theorem exec_irReadErrors (f : Face) (s : State) : exec (.irReadErrors f.val) s =
    .next ((s.setRx f (s.rx.get f).clearErrors).returns (.errors (s.rx.get f).errorBits)) := by
  simp only [exec, execIrReadErrors, withFace_val, State.onRx_eq]

theorem RxFace.afterPoll_of_present {r : RxFace} (h : r.present = true) : r.afterPoll = { r with lastValue := 0x00 } := by
  rw [afterPoll, if_pos h]

theorem RxFace.afterPoll_of_empty {r : RxFace} (h : r.present = false) : r.afterPoll = r := by
  rw [afterPoll, h, if_neg Bool.false_ne_true]

theorem RxFace.pollValue_of_present {r : RxFace} (h : r.present = true) : r.pollValue = some r.mailValue := by
  rw [pollValue, if_pos h]

theorem RxFace.pollValue_of_empty {r : RxFace} (h : r.present = false) : r.pollValue = none := by
  rw [pollValue, h, if_neg Bool.false_ne_true]

@[simp] theorem State.setRx_get_self (f : Face) (s : State) : s.setRx f (s.rx.get f) = s := by
  simp [State.setRx]

/-- Settles O22: the poll reads the mailbox and clears it, by whether a value is present. -/
theorem irPollReadsAndClearsTheMailbox : Obligations.IrPollReadsAndClearsTheMailbox := by
  intro f s
  rw [exec_irPoll]
  refine ⟨fun h => ?present, fun h => ?empty⟩
  case present => rw [RxFace.afterPoll_of_present h, RxFace.pollValue_of_present h]; rfl
  case empty => rw [RxFace.afterPoll_of_empty h, RxFace.pollValue_of_empty h, State.setRx_get_self]; rfl

theorem takeData_of_present {f : Face} {s : State} (h : (s.rx.get f).present = true) :
    takeData f s =
      { s with
        rx := s.rx.set f { s.rx.get f with lastValue := 0x00 }
        result := some (.value ((s.rx.get f).lastValue.setWidth 7))
        hold := none } := by
  rw [takeData, State.onRx_eq, RxFace.afterPoll_of_present h]; rfl

theorem Feed.advance_eq_drop {α : Type} (p : Feed α) : p.advance = p.drop 1 := by
  rw [Feed.advance, Feed.drop, List.drop_one]

/-- What falls before a poll: as many sample steps as the next tick count says (log 7). -/
theorem preempt_eq (s : State) :
    preempt s = sampleTimes (s.ticks.nth Config.freeTicks 0) { s with ticks := s.ticks.drop 1 } := by
  rw [preempt, Feed.peek_eq_nth, Feed.advance_eq_drop]

/-- Settles O23: a poll that finds a value takes it, at once or while the main loop is held. -/
theorem irGetDataHoldsUntilAValueIsPresent : Obligations.IrGetDataHoldsUntilAValueIsPresent := by
  intro f s
  refine ⟨fun h => ?takes, fun h => ?holds, rfl, fun n t ht => by cases ht; rfl, fun hc hs hh => ?held⟩
  case takes =>
    have h : (s.rx.get f).present = true := h
    rw [exec_irGetData, if_pos h, takeData_of_present h]
  case holds =>
    have h : (s.rx.get f).present = false := h
    rw [exec_irGetData, h, if_neg Bool.false_ne_true]
  case held =>
    rw [step_of_hold hc hs hh, whileHeld, preempt_eq]
    intro u
    refine ⟨fun h => ?_, fun h => ?_⟩
    · have h : (u.rx.get f).present = true := h
      rw [if_pos h, takeData_of_present h]
    · have h : (u.rx.get f).present = false := h
      rw [h, if_neg Bool.false_ne_true]

/-- Settles O24: the read and the clear are one update. -/
theorem irReadErrorsReturnsAndClearsTheFlags : Obligations.IrReadErrorsReturnsAndClearsTheFlags :=
  fun f s => exec_irReadErrors f s

end Sys2Proof.Machine

namespace Sys2Proof

/-! ### The classes of the shift register (30 R81, 40 R122) -/

/-- The class a list of rows gives a value of the register, the first row that hits deciding. -/
def classIn (rows : List PatternRow) (B : Byte) : SampleClass :=
  match rows.find? (fun r => r.hits B) with
  | some r => r.cls
  | none => .nothing

theorem classIn_cons (r : PatternRow) (rows : List PatternRow) (B : Byte) :
    classIn (r :: rows) B = if B &&& r.mask = r.pattern then r.cls else classIn rows B := by
  by_cases h : B &&& r.mask = r.pattern
  · have hhit : r.hits B = true := beq_iff_eq.mpr h
    rw [if_pos h, classIn, List.find?_cons_of_pos (p := fun r : PatternRow => r.hits B) hhit]
  · have hmiss : ¬r.hits B = true := fun hhit => h (beq_iff_eq.mp hhit)
    rw [if_neg h, classIn, List.find?_cons_of_neg (p := fun r : PatternRow => r.hits B) hmiss]
    rfl

/-- The tests of the pattern table in their order (60 R236). -/
theorem classify_eq (n : Nat) (B : Byte) :
    classify n B =
      if B &&& 0x1F = 0x04 then .zero
      else if B &&& 0x3F = 0x0C then .oneAdj
      else if B &&& 0x7F = 0x14 then .oneSkew
      else if B &&& 0x07 = 0x07 then .sync
      else if B &&& lowOnes n = 0x00 then .dropout
      else if B &&& 0x0F = 0x0B then .noise1011
      else if B &&& 0x0F = 0x0D then .noise1101
      else if B &&& 0x1F = 0x15 then .noise10101
      else .nothing := by
  have hrows : classify n B = classIn (patternTable n) B := rfl
  have hsync : lowOnes Config.syncSamples = 0x07 := rfl
  rw [hrows, patternTable, hsync]
  simp only [classIn_cons]
  rfl

theorem lowOnes_getLsbD {n k : Nat} (hn : n ≤ 8) : (lowOnes n).getLsbD k = decide (k < n) := by
  simp only [lowOnes, BitVec.getLsbD_ofNat, Nat.testBit_two_pow_sub_one]
  by_cases hk : k < n
  · simp [hk]; omega
  · simp [hk]

/-- The newest `n` windows are empty (92 D6). -/
theorem and_lowOnes_eq_zero {n : Nat} (hn : n ≤ 8) (B : Byte) :
    B &&& lowOnes n = 0x00 ↔ ∀ k, k < n → B.getLsbD k = false := by
  constructor
  · intro h k hk
    have hbit := congrArg (fun b : Byte => b.getLsbD k) h
    simpa [lowOnes_getLsbD hn, hk] using hbit
  · intro h
    apply BitVec.eq_of_getLsbD_eq
    intro k _
    by_cases hk : k < n <;> simp [lowOnes_getLsbD hn, hk, h k]

/-- No value of the register has two of the patterns; a noise value has a flash in the newest window. -/
theorem patterns_exclusive : ∀ B : Byte,
    (B &&& 0x3F = 0x0C → ¬B &&& 0x1F = 0x04) ∧
    (B &&& 0x7F = 0x14 → ¬B &&& 0x1F = 0x04 ∧ ¬B &&& 0x3F = 0x0C) ∧
    (B &&& 0x07 = 0x07 → ¬B &&& 0x1F = 0x04 ∧ ¬B &&& 0x3F = 0x0C ∧ ¬B &&& 0x7F = 0x14) ∧
    (B &&& 0x0F = 0x0B ∨ B &&& 0x0F = 0x0D ∨ B &&& 0x1F = 0x15 → B.getLsbD 0 = true ∧
      ¬B &&& 0x1F = 0x04 ∧ ¬B &&& 0x3F = 0x0C ∧ ¬B &&& 0x7F = 0x14 ∧ ¬B &&& 0x07 = 0x07) ∧
    (B &&& 0x0F = 0x0D → ¬B &&& 0x0F = 0x0B) ∧
    (B &&& 0x1F = 0x15 → ¬B &&& 0x0F = 0x0B ∧ ¬B &&& 0x0F = 0x0D) := by
  decide

/-- When the tests exclude each other, but for `D` that is made behind the first four, each class is its own test. -/
theorem class_iff_of_exclusive {Z A K S D N P Q : Prop} [Decidable Z] [Decidable A] [Decidable K] [Decidable S]
    [Decidable D] [Decidable N] [Decidable P] [Decidable Q] (hA : A → ¬Z) (hK : K → ¬Z ∧ ¬A) (hS : S → ¬Z ∧ ¬A ∧ ¬K)
    (hnoise : N ∨ P ∨ Q → ¬D ∧ ¬Z ∧ ¬A ∧ ¬K ∧ ¬S) (hP : P → ¬N) (hQ : Q → ¬N ∧ ¬P) {c : SampleClass}
    (hc : c = if Z then .zero else if A then .oneAdj else if K then .oneSkew else if S then .sync
      else if D then .dropout else if N then .noise1011 else if P then .noise1101 else if Q then .noise10101
      else .nothing) :
    (c = .zero ↔ Z) ∧ (c = .oneAdj ↔ A) ∧ (c = .oneSkew ↔ K) ∧ (c = .sync ↔ S) ∧
    (c = .dropout ↔ ¬(Z ∨ A ∨ K ∨ S) ∧ D) ∧ (c = .noise1011 ↔ N) ∧ (c = .noise1101 ↔ P) ∧ (c = .noise10101 ↔ Q) := by
  split_ifs at hc <;> simp_all

/-- How many of the `2 ^ k` numbers from `lo` on a test accepts, counted half by half. -/
def countHalves (p : Nat → Bool) : Nat → Nat → Nat
  | 0, lo => (p lo).toNat
  | k + 1, lo => countHalves p k lo + countHalves p k (lo + 2 ^ k)

theorem length_filter_range' (p : Nat → Bool) : ∀ k lo : Nat,
    ((List.range' lo (2 ^ k)).filter p).length = countHalves p k lo
  | 0, lo => by cases h : p lo <;> simp [countHalves, h]
  | k + 1, lo => by
    have hsplit : List.range' lo (2 ^ (k + 1)) = List.range' lo (2 ^ k) ++ List.range' (lo + 2 ^ k) (2 ^ k) := by
      rw [List.range'_append_1, pow_succ, mul_two]
    rw [hsplit, List.filter_append, List.length_append, length_filter_range' p k, length_filter_range' p k, countHalves]

/-- How many values of the register have a class. -/
theorem classCount_eq (c : SampleClass) :
    ((List.range 256).filter fun n => classify 8 (BitVec.ofNat 8 n) == c).length =
      countHalves (fun n => classify 8 (BitVec.ofNat 8 n) == c) 8 0 := by
  rw [List.range_eq_range']
  exact length_filter_range' _ 8 0

/-- Settles O9: the tests exclude each other, so the order does not matter but for the dropout, which is tested behind the
symbols; and the values of each class are counted. -/
theorem sampleWordsAreClassified : Obligations.SampleWordsAreClassified := by
  refine ⟨fun n B h1 h8 => ?classes, ?empty, ?counts⟩
  case classes =>
    obtain ⟨hadj, hskew, hsync, hnoise, h1101, h10101⟩ := patterns_exclusive B
    have hflash : B.getLsbD 0 = true → ¬B &&& lowOnes n = 0x00 := by
      intro h0 hempty
      rw [(and_lowOnes_eq_zero h8 B).mp hempty 0 h1] at h0; cases h0
    rw [← and_lowOnes_eq_zero h8 B]
    exact class_iff_of_exclusive hadj hskew hsync (fun h => ⟨hflash (hnoise h).1, (hnoise h).2⟩) h1101 h10101
      (classify_eq n B)
  case empty => decide
  case counts =>
    simp only [classCount_eq]
    decide

end Sys2Proof

namespace Sys2Proof

/-! ### What stands for an instruction and what for none (30 R81 to R102; log 2) -/

theorem decodeMask_of_ge {b : Byte} (h : 64 ≤ b.toNat) : decodeMask b = .error (.maskTooWide b) :=
  if_neg (Nat.not_lt.mpr h)

theorem decodeMask_of_lt {b : Byte} (h : b.toNat < 64) : decodeMask b = .ok (b.setWidth 6) := if_pos h

theorem decodePulseGroup_of_count {c m : Byte} (hm : m.toNat < 64) (h1 : c ≠ 1) (h2 : c ≠ 2) (h4 : c ≠ 4) :
    decodePulseGroup [c, m] = .error (.pulseCount c) := by
  have h4' : c.toNat ≠ Config.syncPulses := fun h => h4 (BitVec.eq_of_toNat_eq h)
  simp only [decodePulseGroup, decodeMask_of_lt hm, h4', h1, h2, if_false]

theorem decodeFrame_of_even {b m : Byte} (hm : m.toNat < 64)
    (heven : (popcount (b.extractLsb' 1 7) + (b.getLsbD 0).toNat) % 2 = 0) :
    decodeFrame [b, m] = .error (.evenParity b) := by
  have hbad : parityGood (b.extractLsb' 1 7) (b.getLsbD 0) = false := by
    rw [Machine.parityGood_eq, heven]; rfl
  simp only [decodeFrame, decodeMask_of_lt hm, hbad, Bool.false_eq_true, if_false]

theorem decodePacket_of_not_special {a b : Byte} (f : Byte) (h : ¬(a = b ∧ (a = 0x15 ∨ a = 0x33))) :
    decodePacket [a, b, f] = .error (.notSpecial a b) := by
  have hsleep : ¬(a = Config.sleepConst ∧ b = Config.sleepConst) := fun ⟨ha, hb⟩ => h ⟨ha.trans hb.symm, .inl ha⟩
  have hwake : ¬(a = Config.wakeConst ∧ b = Config.wakeConst) := fun ⟨ha, hb⟩ => h ⟨ha.trans hb.symm, .inr ha⟩
  rw [decodePacket, if_neg hsleep, if_neg hwake]

theorem decodeBit_of_wide {v : Byte} (h0 : v ≠ 0) (h1 : v ≠ 1) : decodeBit v = .error (.notABit v) := by
  rw [decodeBit, if_neg h0, if_neg h1]

theorem decodeNullary_of_length (i : Instr) {bytes : List Byte} (h : bytes.length ≠ 0) :
    decodeNullary i bytes = .error (.operandCount bytes.length) := by
  match bytes, h with
  | [], h => exact absurd rfl h
  | _ :: _, _ => rfl

theorem decodeUnary_of_length (k : Byte → Instr) {bytes : List Byte} (h : bytes.length ≠ 1) :
    decodeUnary k bytes = .error (.operandCount bytes.length) := by
  match bytes, h with
  | [], _ => rfl
  | [_], h => exact absurd rfl h
  | _ :: _ :: _, _ => rfl

theorem decodeFaceByte_of_length (k : Nat → Byte → Except Reject Instr) {bytes : List Byte} (h : bytes.length ≠ 2) :
    decodeFaceByte k bytes = .error (.operandCount bytes.length) := by
  match bytes, h with
  | [], _ => rfl
  | [_], _ => rfl
  | [_, _], h => exact absurd rfl h
  | _ :: _ :: _ :: _, _ => rfl

/-- The formats of two bytes reject any other number. -/
theorem decode_twoBytes_of_length {bytes : List Byte} (h : bytes.length ≠ 2) :
    decodeSample bytes = .error (.operandCount bytes.length) ∧
    decodePulseGroup bytes = .error (.operandCount bytes.length) ∧
    decodeFrame bytes = .error (.operandCount bytes.length) := by
  match bytes, h with
  | [], _ => exact ⟨rfl, rfl, rfl⟩
  | [_], _ => exact ⟨rfl, rfl, rfl⟩
  | [_, _], h => exact absurd rfl h
  | _ :: _ :: _ :: _, _ => exact ⟨rfl, rfl, rfl⟩

theorem decodePacket_of_length {bytes : List Byte} (h : bytes.length ≠ 3) :
    decodePacket bytes = .error (.operandCount bytes.length) := by
  match bytes, h with
  | [], _ => rfl
  | [_], _ => rfl
  | [_, _], _ => rfl
  | [_, _, _], h => exact absurd rfl h
  | _ :: _ :: _ :: _ :: _, _ => rfl

theorem decodeHeader_of_length {bytes : List Byte} (h : bytes.length < 2) :
    decodeHeader bytes = .error (.operandCount bytes.length) := by
  match bytes, h with
  | [], _ => rfl
  | [_], _ => rfl

/-- Settles O6: the words are decoded, and each format rejects what its lemma says. -/
theorem specWordsDecode : Obligations.SpecWordsDecode := by
  refine ⟨by decide, by decide, by decide, by decide, by decide, by decide, by decide, by decide, by decide, by decide,
    by decide, by decide, fun c m hm h1 h2 h4 => decodePulseGroup_of_count hm h1 h2 h4,
    fun b m hm heven => decodeFrame_of_even hm heven, fun b m bytes hm => ⟨?group, ?frame, ?packet⟩,
    fun a b f h => decodePacket_of_not_special f h, fun f v h0 h1 => ?bit, ?count,
    fun bytes h => decodeHeader_of_length h, rfl, rfl⟩
  case group => simp only [decode, decodePulseGroup, decodeMask_of_ge hm]
  case frame => simp only [decode, decodeFrame, decodeMask_of_ge hm]
  case packet => simp only [decode, decodeCall, decodeList, decodeMask_of_ge hm, Except.map]
  case bit => simp only [decode, decodeCall, decodeFaceByte, decodeBit_of_wide h0 h1, Except.map]
  case count =>
    intro space count hmem bytes hlen
    simp only [List.mem_cons, Prod.mk.injEq, List.not_mem_nil, or_false] at hmem
    obtain ⟨rfl, rfl⟩ | ⟨rfl, rfl⟩ | ⟨rfl, rfl⟩ | ⟨rfl, rfl⟩ | hcall := hmem
    · exact (decode_twoBytes_of_length hlen).1
    · exact (decode_twoBytes_of_length hlen).2.1
    · exact (decode_twoBytes_of_length hlen).2.2
    · exact decodePacket_of_length hlen
    · rcases hcall with ⟨rfl, rfl⟩ | ⟨rfl, rfl⟩ | ⟨rfl, rfl⟩ | ⟨rfl, rfl⟩ | ⟨rfl, rfl⟩ | ⟨rfl, rfl⟩ | ⟨rfl, rfl⟩ |
        ⟨rfl, rfl⟩ | ⟨rfl, rfl⟩ | ⟨rfl, rfl⟩ | ⟨rfl, rfl⟩ | ⟨rfl, rfl⟩ | ⟨rfl, rfl⟩ | ⟨rfl, rfl⟩ | ⟨rfl, rfl⟩ |
        ⟨rfl, rfl⟩ | ⟨rfl, rfl⟩ | ⟨rfl, rfl⟩ | ⟨rfl, rfl⟩ | ⟨rfl, rfl⟩
      exacts [decodeNullary_of_length _ hlen, decodeUnary_of_length _ hlen, decodeUnary_of_length _ hlen,
        decodeUnary_of_length _ hlen, decodeNullary_of_length _ hlen, decodeNullary_of_length _ hlen,
        decodeFaceByte_of_length (fun f v => .ok (.setOutgoingValue f v)) hlen, decodeUnary_of_length _ hlen,
        decodeUnary_of_length _ hlen, decodeUnary_of_length _ hlen, decodeUnary_of_length _ hlen,
        decodeNullary_of_length _ hlen, decodeUnary_of_length _ hlen, decodeUnary_of_length _ hlen,
        decodeUnary_of_length _ hlen, decodeUnary_of_length _ hlen, decodeUnary_of_length _ hlen,
        decodeFaceByte_of_length (fun f v => (decodeBit v).map fun b => .setPostponeSleep f b) hlen,
        decodeNullary_of_length _ hlen, decodeNullary_of_length _ hlen]

end Sys2Proof

namespace Sys2Proof.Machine

/-! ### The serializer's operands and groups (42 R152 to R159) -/

theorem exec_txsSync {m : Mask} (h : m ≠ 0) (s : State) :
    exec (.txsSync m) s = .next (s.transmit (syncGroup s.config m)) := by
  simp only [exec, execTxsSync, withMask_ne h]

theorem exec_txsZero {m : Mask} (h : m ≠ 0) (s : State) :
    exec (.txsZero m) s = .next (s.transmit (bitGroup s.config m false)) := by
  simp only [exec, execTxsZero, withMask_ne h]

theorem exec_txsOne {m : Mask} (h : m ≠ 0) (s : State) :
    exec (.txsOne m) s = .next (s.transmit (bitGroup s.config m true)) := by
  simp only [exec, execTxsOne, withMask_ne h]

theorem exec_txByte {m : Mask} {v : Byte} (hm : m ≠ 0) (hv : v.toNat < 128) (s : State) :
    exec (.txByte m v) s = .next (s.transmit (frameTrace s.config m (v.setWidth 7))) := by
  simp only [exec, execTxByte, withMask_ne hm, withPhy_lt hv]

/-- Settles O25: a pulse group is appended by its row alone. -/
theorem pulseGroupsAreSent : Obligations.PulseGroupsAreSent :=
  fun _ s hm => ⟨exec_txsSync hm s, exec_txsZero hm s, exec_txsOne hm s⟩

theorem withPacket_of_length {bytes : List Byte} (h : bytes.length = 0 ∨ 18 < bytes.length) (k : Packet → Out) :
    withPacket bytes k = .refused (.packetLength bytes.length) := by
  cases bytes with
  | nil => rfl
  | cons b bs =>
    have hlong : ¬bs.length + 1 ≤ Config.packetCapacity := by
      simp only [List.length_cons] at h
      unfold Config.packetCapacity
      omega
    exact if_neg hlong

/-- Settles O27: each refusal is that of the operand out of its domain. -/
theorem transmissionOperandsAreRefused : Obligations.TransmissionOperandsAreRefused := by
  intro s
  refine ⟨fun v => rfl, fun m v hm hv => ?wide, ?groups, fun bytes => rfl,
    fun m bytes hm hlen => ?packet⟩
  case wide => simp only [exec, execTxByte, withMask_ne hm, withPhy_ge hv]
  case groups =>
    simp only [List.forall_mem_cons, List.not_mem_nil, false_implies, implies_true, and_true]
    exact ⟨rfl, rfl, rfl⟩
  case packet => simp only [exec, execTxPacket, withMask_ne hm, withPacket_of_length hlen]

/-! ### Timers and the face channel (file 43) -/

theorem timerSet_eq_min (cfg : Config) (now d : Timer) : timerSet cfg now d = min (now + d) (neverOf cfg) := by
  unfold timerSet
  split
  · exact (min_eq_right ‹_›).symm
  · exact (min_eq_left (le_of_lt (not_le.mp ‹_›))).symm

theorem elapsed_iff {cfg : Config} {t now : Timer} : elapsed cfg t now = true ↔ t ≠ neverOf cfg ∧ t ≤ now := by
  simp [elapsed]

/-- Settles O31: the saturating sum is a minimum, and the elapsed test is its two comparisons. -/
theorem timersSaturateAndElapse : Obligations.TimersSaturateAndElapse :=
  fun cfg now d _ => ⟨timerSet_eq_min cfg now d, elapsed_iff⟩

theorem State.now_eq_clockAt (s : State) : s.now = s.clockAt 0 := by
  rw [State.now, State.clockAt, Feed.peek_eq_nth]

theorem State.afterNow_eq (s : State) : s.afterNow = { s with clock := s.clock.drop 1 } := by
  rw [State.afterNow, Feed.advance_eq_drop]

/-- 43 R181, R185: a special packet moves the expiry deadline and is reported. -/
theorem exec_special (f : Face) (s : State) :
    exec (.specialSleep f.val) s =
      .next ((refreshExpiry f s.now s.afterNow).notify (.specialPacket f Config.sleepConst)) ∧
    exec (.specialWake f.val) s =
      .next ((refreshExpiry f s.now s.afterNow).notify (.specialPacket f Config.wakeConst)) := by
  simp only [exec, execSpecialSleep, execSpecialWake, withFace_val]
  exact ⟨rfl, rfl⟩

/-- Settles O36: the two rows are one update, with the clock reading made for it. -/
theorem specialPacketsAreReportedOnly : Obligations.SpecialPacketsAreReportedOnly := by
  intro f s
  obtain ⟨hsleep, hwake⟩ := exec_special f s
  rw [State.now_eq_clockAt, State.afterNow_eq] at hsleep hwake
  exact List.forall_mem_cons.mpr ⟨hsleep, List.forall_mem_singleton.mpr hwake⟩

theorem exec_getIncomingValue (f : Face) (s : State) :
    exec (.getIncomingValue f.val) s = .next (s.returns (.byte (s.fc.get f).inValue)) := by
  simp only [exec, execGetIncomingValue, withFace_val]

/-- Settles O42: the query is its own equation. -/
theorem getIncomingValueReturnsTheLastValue : Obligations.GetIncomingValueReturnsTheLastValue :=
  exec_getIncomingValue

theorem exec_didValueChange (f : Face) (s : State) :
    exec (.didValueChange f.val) s =
      .next ((s.setFc f { s.fc.get f with shadow := (s.fc.get f).inValue }).returns
        (.flag ((s.fc.get f).inValue != (s.fc.get f).shadow))) := by
  simp only [exec, execDidValueChange, withFace_val]

theorem bne_eq_decide_ne {α : Type} [DecidableEq α] (a b : α) : (a != b) = decide (a ≠ b) := by
  by_cases h : a = b <;> simp [h]

/-- Settles O43: the query compares the two bytes and then copies one. -/
theorem didValueChangeComparesAndCopies : Obligations.DidValueChangeComparesAndCopies := by
  intro f s
  rw [exec_didValueChange, bne_eq_decide_ne]
  rfl

theorem exec_isExpired (f : Face) (s : State) :
    exec (.isExpired f.val) s = .next (s.afterNow.returns (.flag (expiredAt s s.now f))) := by
  simp only [exec, execIsExpired, withFace_val]

theorem exec_isAlone (s : State) :
    exec .isAlone s = .next (s.afterNow.returns (.flag (allFaces.all (expiredAt s s.now)))) := rfl

theorem allFaces_all (p : Face → Bool) : allFaces.all p = decide (∀ f, p f = true) := by
  rw [Bool.eq_iff_iff]
  simp [List.all_eq_true, mem_allFaces]

/-- Settles O44: both queries test deadlines against one reading. -/
theorem expiryQueriesReadTheClockOnce : Obligations.ExpiryQueriesReadTheClockOnce := by
  intro s
  refine ⟨fun f => ?_, ?_⟩
  · rw [exec_isExpired, State.now_eq_clockAt, State.afterNow_eq]; rfl
  · rw [exec_isAlone, State.now_eq_clockAt, State.afterNow_eq, allFaces_all]; rfl

/-! ### The datagram sequencer's operations (file 44) -/

theorem exec_sendDatagram {bytes : List Byte} (h1 : bytes.head? ≠ some 0x15) (h2 : bytes.head? ≠ some 0x33) (f : Face)
    (s : State) : exec (.sendDatagram f.val bytes) s =
      .next (if canArm f bytes s then (arm f bytes s).returns (.flag true) else s.returns (.flag false)) := by
  simp only [exec, execSendDatagram, withFace_val, withPayload_ok h1 h2]

theorem withPayload_reserved {bytes : List Byte} {b : Byte} (hhead : bytes.head? = some b) (hb : b = 0x15 ∨ b = 0x33)
    (k : Out) : withPayload bytes k = .refused (.reservedPayload b) := by
  cases bytes with
  | nil => cases hhead
  | cons c bs => cases hhead; exact if_pos hb

/-- Settles O46: a payload that cannot be armed is answered, a reserved one is refused before that. -/
theorem sendDatagramFailsOrIsRefused : Obligations.SendDatagramFailsOrIsRefused := by
  intro f bytes s
  refine ⟨fun h1 h2 hfail => ?fails, fun b hhead hb => ?reserved⟩
  case fails =>
    have hcannot : ¬canArm f bytes s = true := by
      rw [canArm_iff]
      rintro ⟨hempty, hone, hlong⟩
      rcases hfail with hfull | hnone | htoo
      · exact hfull hempty
      · omega
      · omega
    rw [exec_sendDatagram h1 h2, if_neg hcannot]
    rfl
  case reserved => simp only [exec, execSendDatagram, withFace_val, withPayload_reserved hhead hb]

theorem exec_getDatagram (f : Face) (s : State) :
    exec (.getDatagram f.val) s = .next (s.returns (.bytes (s.dgIn.get f).content)) := by
  simp only [exec, execGetDatagram, withFace_val]

theorem Slot.content_eq_map (sl : Slot) : sl.content = (List.range sl.len.val).map sl.bytes.read :=
  Memory.readAll_eq_map sl.bytes sl.len.val

theorem Slot.full_eq_decide (sl : Slot) : sl.full = decide (sl.len ≠ 0) := bne_eq_decide_ne sl.len 0

/-- Settles O49: each query is its own equation, a slot's content being its bytes one by one. -/
theorem datagramQueriesOnlyRead : Obligations.DatagramQueriesOnlyRead := by
  intro f s
  refine ⟨?pending, ?ready, ?length, ?content⟩
  case pending => simp only [exec, execIsDatagramPending, withFace_val, Slot.full_eq_decide]; rfl
  case ready => simp only [exec, execIsDatagramReady, withFace_val, Slot.full_eq_decide]; rfl
  case length => simp only [exec, execDatagramLength, withFace_val]; rfl
  case content => rw [exec_getDatagram, Slot.content_eq_map]; rfl

/-- Settles O50: consuming is one write of the inbound slot. -/
theorem consumeDatagramFreesTheSlot : Obligations.ConsumeDatagramFreesTheSlot := exec_consumeDatagram

/-- Settles O51: the setter is one write of the face's header. -/
theorem setPostponeSleepWritesTheHeaderBit : Obligations.SetPostponeSleepWritesTheHeaderBit := by
  intro f b s
  simp only [exec, execSetPostponeSleep, withFace_val, State.onHeader_eq]
  rfl

/-! ### Operands no operation takes, and the operations out of scope -/

/-- Settles O53: every row with a face operand checks it before all else. -/
theorem faceAboveFiveIsRefused : Obligations.FaceAboveFiveIsRefused := by
  intro i s f hf h6
  unfold exec
  cases i <;> cases hf <;> exact withFace_of_ge h6 _

/-- Settles O54: both rows refuse by name. -/
theorem sleepProtocolIsRefused : Obligations.SleepProtocolIsRefused := fun _ => ⟨rfl, rfl⟩

end Sys2Proof.Machine

namespace Sys2Proof.Machine

/-! ### What an operation does not see: the schedule (log 1) -/

/-- A state at another place of the schedule: another agenda, the main loop at another place. -/
def State.placed (s : State) (q : List Action) (m : Option MainPosition) : State := { s with agenda := q, mainAt := m }

theorem sampleTimes_placed (q : List Action) (m : Option MainPosition) : ∀ (n : Nat) (s : State),
    sampleTimes n (s.placed q m) = (sampleTimes n s).placed q m
  | 0, _ => rfl
  | n + 1, s => sampleTimes_placed q m n (sampleAll s)

theorem preempt_placed (q : List Action) (m : Option MainPosition) (s : State) :
    preempt (s.placed q m) = (preempt s).placed q m :=
  sampleTimes_placed q m (s.ticks.peek Config.freeTicks) { s with ticks := s.ticks.advance }

theorem pollTimes_placed (q : List Action) (m : Option MainPosition) (f : Face) (again : List CarrierEvent → Bool) :
    ∀ (n : Nat) (s : State), pollTimes f again n (s.placed q m) =
      ((pollTimes f again n s).1, (pollTimes f again n s).2.placed q m)
  | 0, _ => rfl
  | n + 1, s => by
    have hagain : again (s.placed q m).carrierLog = again s.carrierLog := rfl
    have hpoll : pollOnce f ((preempt s).placed q m) = (pollOnce f (preempt s)).placed q m := rfl
    rw [pollTimes, pollTimes, hagain]
    split
    · simp only [preempt_placed, hpoll, pollTimes_placed q m f again n]
      rfl
    · rfl

/-- The polls of an uninterpreted carrier in its next `PKT_RX(f)`: was a value consumed, and the state after them. -/
def carrierPoll (f : Face) (s : State) : Bool × State :=
  pollTimes f (carrierAgain f s) (carrierPolls f s) { s with carrierRx := s.carrierRx.advance }

theorem packetRx_uninterpreted {s : State} (h : s.config.carrier = .uninterpreted) (f : Face) :
    packetRx f s =
      ⟨(carrierPoll f s).1, carrierPacket f s (carrierPoll f s).2.carrierLog, (carrierPoll f s).2⟩ := by
  rw [packetRx, h]
  rfl

theorem packetRx_faceOnly {s : State} (h : s.config.carrier = .faceOnly) (f : Face) :
    packetRx f s =
      ⟨((preempt s).rx.get f).pollValue.isSome, ((preempt s).rx.get f).pollValue.map fun v => ⟨v.setWidth 8, []⟩,
        (preempt s).setRx f ((preempt s).rx.get f).afterPoll⟩ := by
  rw [packetRx, h]
  rfl

theorem carrierPoll_placed (q : List Action) (m : Option MainPosition) (f : Face) (s : State) :
    carrierPoll f (s.placed q m) = ((carrierPoll f s).1, (carrierPoll f s).2.placed q m) :=
  pollTimes_placed q m f (carrierAgain f s) (carrierPolls f s) { s with carrierRx := s.carrierRx.advance }

theorem packetRx_placed (q : List Action) (m : Option MainPosition) (f : Face) (s : State) :
    packetRx f (s.placed q m) =
      { packetRx f s with state := (packetRx f s).state.placed q m } := by
  cases h : s.config.carrier with
  | faceOnly =>
    have h' : (s.placed q m).config.carrier = .faceOnly := h
    rw [packetRx_faceOnly h', packetRx_faceOnly h, preempt_placed]
    rfl
  | uninterpreted =>
    have h' : (s.placed q m).config.carrier = .uninterpreted := h
    rw [packetRx_uninterpreted h', packetRx_uninterpreted h, carrierPoll_placed]
    rfl

/-- A state at another place of the schedule, with other receive registers and samples. -/
def State.beside (s : State) (r : PerFace RxFace) (p : Feed Mask) (q : List Action) (m : Option MainPosition) : State :=
  { s with rx := r, samples := p, agenda := q, mainAt := m }

section Header

variable (r : PerFace RxFace) (p : Feed Mask) (q : List Action) (m : Option MainPosition) (f : Face) (h : Byte)

theorem reportPostpone_beside (s : State) :
    reportPostpone f h (s.beside r p q m) = (reportPostpone f h s).beside r p q m := by
  unfold reportPostpone
  split <;> rfl

theorem acknowledge_beside (s : State) :
    acknowledge f h (s.beside r p q m) = (acknowledge f h s).beside r p q m := by
  have hfc : (s.beside r p q m).fc = s.fc := rfl
  rw [acknowledge, acknowledge, hfc]
  split <;> rfl

theorem accept_beside (payload : List Byte) (s : State) :
    accept f h payload (s.beside r p q m) = (accept f h payload s).beside r p q m := by
  have hacc : accepts f h payload (s.beside r p q m) = accepts f h payload s := rfl
  rw [accept, accept, hacc]
  split <;> rfl

/-- A header and its payload are treated without a look at the receive registers or the schedule. -/
theorem datagramReceive_beside (payload : List Byte) (s : State) :
    datagramReceive f h payload (s.beside r p q m) = (datagramReceive f h payload s).beside r p q m := by
  unfold datagramReceive
  split
  · rw [reportPostpone_beside, acknowledge_beside, accept_beside]
  · rfl

end Header

theorem datagramReceive_placed (q : List Action) (m : Option MainPosition) (f : Face) (h : Byte) (payload : List Byte)
    (s : State) : datagramReceive f h payload (s.placed q m) = (datagramReceive f h payload s).placed q m := by
  have hbeside : datagramReceive f h payload (s.placed q m) = (datagramReceive f h payload s).beside s.rx s.samples q m :=
    datagramReceive_beside s.rx s.samples q m f h payload s
  rw [hbeside, datagramReceive_frame]
  rfl

theorem handlePacket_placed (q : List Action) (m : Option MainPosition) (f : Face) (now : Timer) (p : Packet)
    (s : State) : handlePacket f now p (s.placed q m) = (handlePacket f now p s).placed q m := by
  unfold handlePacket
  split
  · rfl
  · cases p.rest with
    | nil => rfl
    | cons h payload => exact datagramReceive_placed q m f h payload (takeFaceValue f now p.first s)

theorem handleReceived_placed (q : List Action) (m : Option MainPosition) (f : Face) (now : Timer) (saw : Bool)
    (pkt : Option Packet) (s : State) :
    handleReceived f now saw pkt (s.placed q m) = (handleReceived f now saw pkt s).placed q m := by
  cases pkt with
  | none => cases saw <;> rfl
  | some p =>
    cases saw with
    | false => exact handlePacket_placed q m f now p s
    | true => exact handlePacket_placed q m f now p (refreshExpiry f now s)

theorem receiveFace_placed (q : List Action) (m : Option MainPosition) (f : Face) (s : State) :
    receiveFace f (s.placed q m) = (receiveFace f s).placed q m := by
  have hrx := packetRx_placed q m f s.afterNow
  unfold receiveFace
  rw [show (s.placed q m).afterNow = s.afterNow.placed q m from rfl, hrx,
    show (s.placed q m).now = s.now from rfl, handleReceived_placed]

theorem receiveFaces_placed (q : List Action) (m : Option MainPosition) : ∀ (fs : List Face) (s : State),
    receiveFaces fs (s.placed q m) = (receiveFaces fs s).placed q m
  | [], _ => rfl
  | f :: fs, s => by rw [receiveFaces, receiveFaces, receiveFace_placed, receiveFaces_placed q m fs]

theorem visitFace_placed (q : List Action) (m : Option MainPosition) (f : Face) (s : State) :
    visitFace f (s.placed q m) = ((visitFace f s).1.placed q m, (visitFace f s).2) := by
  have hrx := packetRx_placed q m f s
  have hrx' : packetRx f (s.placed q m).afterNow = { packetRx f s.afterNow with
      state := (packetRx f s.afterNow).state.placed q m } := packetRx_placed q m f s.afterNow
  unfold visitFace
  rw [hrx']
  simp only
  cases partOf f (packetRx f s.afterNow).saw (packetRx f s.afterNow).packet with
  | none => simp only [receiveFace_placed]
  | some r =>
    cases r with
    | header g h payload =>
      simp only [handleReceived_placed]
      rfl
    | sleep g => simp only [hrx]
    | wake g => simp only [hrx]

/-- The outcome of an operation with something done to the next state, if there is one. -/
def mapNext (g : State → State) (o : Out) : Out :=
  match o with
  | .next t => .next (g t)
  | .fault r => .fault r
  | .refused r => .refused r

theorem receivePart_placed (q : List Action) (m : Option MainPosition) (r : ReceivePart) (s : State) :
    exec r.instr (s.placed q m) = mapNext (·.placed q m) (exec r.instr s) := by
  cases r with
  | header f h payload =>
    simp only [ReceivePart.instr, exec, execHeader, withFace_val, mapNext, datagramReceive_placed]
  | sleep f => simp only [ReceivePart.instr, (exec_special f _).1]; rfl
  | wake f => simp only [ReceivePart.instr, (exec_special f _).2]; rfl

/-! ### What a transmission does not see: the schedule, and what the sampler writes (42 R161) -/

section Beside

variable (r : PerFace RxFace) (p : Feed Mask) (q : List Action) (m : Option MainPosition)

theorem packetFrames_beside (k : Mask) (pkt : Packet) (s : State) :
    packetFrames k pkt (s.beside r p q m) =
      (packetFrames k pkt s).map fun x => (x.1, x.2.beside r p q m) := by
  have hcfg : (s.beside r p q m).config = s.config := rfl
  unfold packetFrames
  rw [hcfg]
  cases s.config.carrier with
  | faceOnly => simp only; split <;> rfl
  | uninterpreted => rfl

theorem packetTx_beside (k : Mask) (pkt : Packet) (s : State) :
    packetTx k pkt (s.beside r p q m) = (packetTx k pkt s).map (·.beside r p q m) := by
  unfold packetTx
  rw [packetFrames_beside]
  cases packetFrames k pkt s <;> rfl

theorem sendFace_beside (f : Face) (s : State) :
    sendFace f (s.beside r p q m) = (sendFace f s).map (·.beside r p q m) := by
  have htx : packetTx (faceMask f) (outPacket f (s.beside r p q m)) (s.beside r p q m).afterNow =
      (packetTx (faceMask f) (outPacket f s) s.afterNow).map (·.beside r p q m) :=
    packetTx_beside r p q m (faceMask f) (outPacket f s) s.afterNow
  have hdue : elapsed (s.beside r p q m).config ((s.beside r p q m).fc.get f).sendTimer (s.beside r p q m).now =
      elapsed s.config (s.fc.get f).sendTimer s.now := rfl
  rw [sendFace, sendFace, htx, hdue]
  split
  · cases packetTx (faceMask f) (outPacket f s) s.afterNow <;> rfl
  · rfl

theorem sendFaces_beside : ∀ (fs : List Face) (s : State),
    sendFaces fs (s.beside r p q m) = (sendFaces fs s).map (·.beside r p q m)
  | [], _ => rfl
  | f :: fs, s => by
    rw [sendFaces, sendFaces, sendFace_beside]
    cases sendFace f s with
    | error e => rfl
    | ok t => exact sendFaces_beside fs t

theorem sent_map (g : State → State) (x : Except Refusal State) : sent (x.map g) = mapNext g (sent x) := by
  cases x <;> rfl

end Beside

end Sys2Proof.Machine

namespace Sys2Proof.Machine

/-! ### A step is the decoded action (20 R71; log 1) -/

theorem runCode_of_decode {c : Code} {i : Instr} (h : decode c = .ok i) (hpart : partOnly i = false)
    (k : Instr → State → Out) (s : State) : runCode k c s = k i s := by
  rw [runCode, h]
  simp only [hpart, Bool.false_eq_true, if_false]

theorem runCode_of_part {c : Code} {i : Instr} (h : decode c = .ok i) (hpart : partOnly i = true)
    (k : Instr → State → Out) (s : State) : runCode k c s = .refused (.partOfAnother i) := by
  rw [runCode, h]
  simp only [hpart, if_true]

theorem runCode_of_error {c : Code} {e : Reject} (h : decode c = .error e) (k : Instr → State → Out) (s : State) :
    runCode k c s = .refused (.undecodable e) := by
  rw [runCode, h]

/-- The row of the table that the register of a face selects, test by test (40 R113, R115 to R121). -/
theorem classify_instr (n f : Nat) (B : Byte) :
    (classify n B).instr f =
      if B &&& 0x1F = 0x04 then .symZero f
      else if B &&& 0x3F = 0x0C then .symOneAdj f
      else if B &&& 0x7F = 0x14 then .symOneSkew f
      else if B &&& 0x07 = 0x07 then .symSync f
      else if B &&& BitVec.ofNat 8 (2 ^ n - 1) = 0x00 then .rxDropout f
      else if B &&& 0x0F = 0x0B then .rxNoise1011 f
      else if B &&& 0x0F = 0x0D then .rxNoise1101 f
      else if B &&& 0x1F = 0x15 then .rxNoise10101 f
      else .rxNone f := by
  have hones : lowOnes n = BitVec.ofNat 8 (2 ^ n - 1) := rfl
  rw [classify_eq, hones]
  split_ifs <;> rfl

theorem samplerStepAt_eq (sample : Mask) (fs : List Face) :
    samplerStepAt sample fs = if fs = [] then none else some (.shifting sample fs) := by
  cases fs <;> rfl

theorem receiveStepAt_eq (fs : List Face) :
    receiveStepAt fs = if fs = [] then none else some (.receiveStep fs) := by
  cases fs <;> rfl

/-- Two bytes and a face of zeros are a special packet on face 0, if anything. -/
theorem decodePacket_table {bs : List Byte} {i : Instr} (h : decodePacket (bs ++ [0]) = .ok i) :
    i = .specialSleep 0 ∨ i = .specialWake 0 := by
  match bs, h with
  | [], h => cases h
  | [_], h => cases h
  | [a, b], h =>
    simp only [List.cons_append, List.nil_append, decodePacket] at h
    split_ifs at h <;> cases h
    · exact .inl rfl
    · exact .inr rfl
  | _ :: _ :: _ :: _, h =>
    rw [decodePacket_of_length (by simp)] at h
    cases h

theorem decodeTableWord_some {nbits w : Nat} {i : Instr} (h : decodeTableWord nbits w = some i) :
    decode (tableCode nbits w) = .ok i := by
  unfold decodeTableWord at h
  split at h
  · cases h; assumption
  · cases h

/-- The machine in a sample step that is about to match the value `B` in the register of face 0. -/
def State.aboutToMatch (s : State) (B : Byte) : State :=
  { s.setRx 0 { s.rx.get 0 with bitstream := B } with samplerAt := some (.matching 0 0 []) }

/-- A word of up to 8 bits is put in the middle of a sample step, about to be matched. -/
theorem withFetchWord_sample (s : State) {nbits : Nat} (w : Nat) (h : nbits ≤ 8) :
    s.withFetchWord nbits w =
      s.aboutToMatch (BitVec.ofNat 8 w) := by
  rw [State.withFetchWord, State.withTableWord, if_pos h]
  rfl

/-- The machine in a receive step that has yet to treat `r`, under a carrier that delivers packets. -/
def State.aboutToTreat (s : State) (r : ReceivePart) : State :=
  { s with
    config := { s.config with carrier := .uninterpreted }
    samplerAt := none, hold := none, agenda := .proceed :: s.agenda, mainAt := some (.treating r []) }

theorem withFetchWord_packet (s : State) {nbits w : Nat} (h : 8 < nbits) :
    (decodeTableWord nbits w = some (.specialSleep 0) → s.withFetchWord nbits w = s.aboutToTreat (.sleep 0)) ∧
    (decodeTableWord nbits w = some (.specialWake 0) → s.withFetchWord nbits w = s.aboutToTreat (.wake 0)) := by
  refine ⟨fun hw => ?_, fun hw => ?_⟩ <;>
    · rw [State.withFetchWord, State.withTableWord, if_neg (Nat.not_le.mpr h), hw]
      rfl

theorem step_aboutToTreat {s : State} (hc : usable s.config) (r : ReceivePart) :
    step (s.aboutToTreat r) = exec r.instr { s with
      config := { s.config with carrier := .uninterpreted }, samplerAt := none, hold := none, mainAt := none } := by
  rw [step_of_mainAt (s := s.aboutToTreat r) hc rfl rfl rfl, whileUnderWay_proceed (rest := s.agenda) rfl]
  rfl

theorem step_matching {s : State} {sample : Mask} {f : Face} {fs : List Face} (hc : usable s.config)
    (hs : s.samplerAt = some (.matching sample f fs)) :
    step s = exec ((classify s.config.dropoutZeroSamples (s.rx.get f).bitstream).instr f.val)
      { s with samplerAt := samplerStepAt sample fs } := by
  rw [step_of_samplerAt hc hs, samplerPart]

/-- Settles O7: a pending operation, the outcome a register decodes to, and a part yet to be treated. -/
theorem stepRunsTheDecodedAction : Obligations.StepRunsTheDecodedAction := by
  refine ⟨fun s c rest i hc hr ha hi hpart => ?pending, fun s sample f fs hc hs => ?matching,
    fun s r fs hc hs hh hm ha => ?treating, fun s nbits w i hc h8 hbits hi => ?sampleWord,
    fun s nbits w i hc hbits hi => ?packetWord⟩
  case pending => rw [step_of_pending hc hr ha, runAction, runCode_of_decode hi hpart]
  case matching =>
    rw [step_matching hc hs, classify_instr, samplerStepAt_eq]
  case treating =>
    rw [step_of_mainAt hc hs hh hm, whileUnderWay_nil ha, mainPart, receiveStepAt_eq]
    cases r <;> rfl
  case sampleWord =>
    have hdecode := decodeTableWord_some hi
    rw [tableCode, if_pos hbits] at hdecode
    obtain rfl : (classify Config.dropoutDefault (BitVec.ofNat 8 w)).instr 0 = i := Except.ok.inj hdecode
    have hrx : ((s.aboutToMatch (BitVec.ofNat 8 w)).rx.get 0).bitstream = BitVec.ofNat 8 w :=
      congrArg RxFace.bitstream
        (PerFace.get_set_same s.rx 0 { s.rx.get 0 with bitstream := BitVec.ofNat 8 w })
    have hd : (s.aboutToMatch (BitVec.ofNat 8 w)).config.dropoutZeroSamples = Config.dropoutDefault := h8
    rw [withFetchWord_sample s w hbits, step_matching (s := s.aboutToMatch (BitVec.ofNat 8 w)) hc rfl, hrx, hd]
    rfl
  case packetWord =>
    have hdecode := decodeTableWord_some hi
    rw [tableCode, if_neg (Nat.not_le.mpr hbits)] at hdecode
    obtain rfl | rfl := decodePacket_table hdecode
    · rw [(withFetchWord_packet s hbits).1 hi, step_aboutToTreat hc]; rfl
    · rw [(withFetchWord_packet s hbits).2 hi, step_aboutToTreat hc]; rfl

/-! ### What a step does otherwise -/

/-- A state with another agenda. -/
def State.withAgenda (s : State) (q : List Action) : State := { s with agenda := q }

theorem sendingAt_withAgenda (q : List Action) (x : Option Transmission) (after : Option SendRest) (s : State) :
    sendingAt x after (s.withAgenda q) = (sendingAt x after s).withAgenda q := by
  cases x with
  | none => cases after <;> rfl
  | some x => rfl

theorem packetFrames_withAgenda (q : List Action) (k : Mask) (p : Packet) (s : State) :
    packetFrames k p (s.withAgenda q) = (packetFrames k p s).map fun x => (x.1, x.2.withAgenda q) := by
  have hcfg : (s.withAgenda q).config = s.config := rfl
  rw [packetFrames, packetFrames, hcfg]
  cases s.config.carrier with
  | faceOnly => simp only; split <;> rfl
  | uninterpreted => rfl

theorem startPacket_withAgenda (q : List Action) (k : Mask) (p : Packet) (after : Option SendRest) (s : State) :
    startPacket k p after (s.withAgenda q) = mapNext (·.withAgenda q) (startPacket k p after s) := by
  rw [startPacket, startPacket, packetFrames_withAgenda]
  cases packetFrames k p s with
  | error e => rfl
  | ok x => exact congrArg Host.Outcome.next (sendingAt_withAgenda q _ after x.2)

theorem sendVisit_withAgenda (q : List Action) (fs : List Face) (s : State) :
    sendVisit fs (s.withAgenda q) = mapNext (·.withAgenda q) (sendVisit fs s) := by
  cases fs with
  | nil => rfl
  | cons f fs =>
    have hdue : elapsed (s.withAgenda q).config ((s.withAgenda q).fc.get f).sendTimer (s.withAgenda q).now =
        elapsed s.config (s.fc.get f).sendTimer s.now := rfl
    rw [sendVisit_cons, sendVisit_cons, hdue]
    split
    · exact startPacket_withAgenda q (faceMask f) (outPacket f s) (some ⟨f, s.now, fs⟩) s.afterNow
    · rfl

theorem receiveVisit_withAgenda (q : List Action) (fs : List Face) (s : State) :
    receiveVisit fs (s.withAgenda q) = (receiveVisit fs s).withAgenda q := by
  cases fs with
  | nil => rfl
  | cons f fs =>
    have hvisit : visitFace f (s.withAgenda q) = ((visitFace f s).1.placed q s.mainAt, (visitFace f s).2) :=
      visitFace_placed q s.mainAt f s
    rw [receiveVisit, receiveVisit, hvisit]
    rcases visitFace f s with ⟨t, _ | r⟩ <;> rfl

/-- A part of an operation does not see the agenda. -/
theorem mainPart_withAgenda (q : List Action) (p : MainPosition) (s : State) :
    mainPart p (s.withAgenda q) = mapNext (·.withAgenda q) (mainPart p s) := by
  cases p with
  | sending x after =>
    exact congrArg Host.Outcome.next (sendingAt_withAgenda q x.next after (s.transmit (x.call s.config)))
  | sendStep fs => exact sendVisit_withAgenda q fs s
  | receiveStep fs => exact congrArg Host.Outcome.next (receiveVisit_withAgenda q fs s)
  | treating r fs =>
    have hplaced : mainPart (.treating r fs) (s.withAgenda q) =
        mapNext (·.placed q (receiveStepAt fs)) (mainPart (.treating r fs) s) :=
      receivePart_placed q (receiveStepAt fs) r { s with mainAt := receiveStepAt fs }
    rw [hplaced]
    cases hs : mainPart (.treating r fs) s with
    | next t =>
      have hm : t.mainAt = receiveStepAt fs := (exec_effect hs).control.2
      rw [← hm]; rfl
    | fault e => rfl
    | refused e => rfl

/-- The rows refused on the agenda are the parts of other operations (10 R21, 60 R242). -/
theorem partOnly_of_part {i : Instr} (h : (samplerOp i = true ∧ i ≠ .sampleStep) ∨
    (∃ m : Mask, i = .txsSync m ∨ i = .txsZero m ∨ i = .txsOne m) ∨ (∃ f h payload, i = .header f h payload) ∨
    (∃ f : Nat, i = .specialSleep f ∨ i = .specialWake f)) : partOnly i = true := by
  obtain ⟨hop, hne⟩ | ⟨m, rfl | rfl | rfl⟩ | ⟨f, h, payload, rfl⟩ | ⟨f, rfl | rfl⟩ := h
  · cases i with
    | sampleStep => exact absurd rfl hne
    | symZero _ | symOneAdj _ | symOneSkew _ | symSync _ | rxDropout _ | rxNoise1011 _ | rxNoise1101 _
    | rxNoise10101 _ | rxNone _ => rfl
    | _ => cases hop
  all_goals rfl

/-- The parity bit as a sum modulo 2 (30 R87). -/
theorem parityBit_eq_xor : ∀ v : Phy,
    parityBit v = (true ^^ v[6] ^^ v[5] ^^ v[4] ^^ v[3] ^^ v[2] ^^ v[1] ^^ v[0]) := by
  decide

/-- The call a transmission makes next (42 R158). -/
theorem Transmission.call_eq (cfg : Config) {x : Transmission} {fr : Frame} (h : x.frames[x.byte]? = some fr) :
    x.call cfg =
      [if x.idle then .idle cfg.tSymbolGapUs
       else if x.symbol.val = 0 then .pulse fr.mask 4 cfg.tSyncGapUs
       else .pulse fr.mask (if (frameBits fr.value).getD (x.symbol.val - 1) false then 2 else 1) cfg.tBitGapUs] := by
  rw [call, h]
  rcases hs : x.symbol with ⟨_ | j, hj⟩ <;> cases x.idle <;> rfl

theorem Transmission.next_of_last {x : Transmission} (hi : x.idle = true) (hs : x.symbol = 8)
    (hb : x.frames.length ≤ x.byte + 1) : x.next = none := by
  simp [next, hi, hs, hb]

theorem Transmission.next_of_not_last {x : Transmission}
    (h : ¬(x.idle = true ∧ x.symbol = 8 ∧ x.frames.length ≤ x.byte + 1)) :
    x.next = some (if x.idle = false then { x with idle := true }
      else if x.symbol.val < 8 then { x with symbol := x.symbol + 1, idle := false }
      else { x with byte := x.byte + 1, symbol := 0, idle := false }) := by
  unfold next
  split_ifs with hi hs hb
  · rfl
  · rfl
  · rfl
  · have hs8 : x.symbol = 8 := by
      have := x.symbol.isLt
      apply Fin.ext
      show x.symbol.val = 8
      omega
    exact absurd ⟨by simpa using hi, hs8, by omega⟩ h

theorem step_sending {s : State} {x : Transmission} {after : Option SendRest} (hc : usable s.config)
    (hs : s.samplerAt = none) (hh : s.hold = none) (ha : s.agenda = []) (hm : s.mainAt = some (.sending x after)) :
    step s = .next (sendingAt x.next after (s.transmit (x.call s.config))) := by
  rw [step_of_mainAt hc hs hh hm, whileUnderWay_nil ha, mainPart]

theorem shiftIn_eq (B : Byte) (b : Bool) : shiftIn B b = B <<< 1 ||| (if b then 1 else 0) := by
  cases b <;> rfl

/-- Settles O8: the agenda does not enter a part of an operation, so what waits there waits unchanged. -/
theorem stepWithoutADecodedAction : Obligations.StepWithoutADecodedAction := by
  refine ⟨fun s h => ?interval, fun s h hd => ?dropout, fun s c a rest hc hr ha hac => ?pending,
    fun s hc hr ha => step_of_nothing_pending hc hr ha, fun s p rest hc hs hh hm => ?underWay,
    fun s x after fr hc hs hh ha hm hfr => ?sending, fun s sample f fs hc hs => ?shifting⟩
  case interval => exact step_of_unusable (if_pos h)
  case dropout =>
    refine step_of_unusable ?_
    rw [configRefusal, if_neg (Nat.not_le.mpr h), if_pos hd]
  case pending =>
    have hstep : ∃ k, step s = runCode k c { s with agenda := rest } := by
      obtain rfl | rfl := hac
      · exact ⟨exec, step_of_pending hc hr ha⟩
      · exact ⟨start, step_of_pending hc hr ha⟩
    obtain ⟨k, hk⟩ := hstep
    rw [hk]
    exact ⟨fun e he => runCode_of_error he k _, fun i hi hpart => runCode_of_part hi (partOnly_of_part hpart) k _⟩
  case underWay =>
    rw [step_of_mainAt hc hs hh hm]
    refine ⟨fun ha => ?_, fun a t ha ht => ?_⟩
    · rw [whileUnderWay, ha]; rfl
    · have ht : mainPart p { s with agenda := [] } = .next t := by
        rw [← ht, step_of_mainAt (s := { s with agenda := [] }) hc hs hh hm, whileUnderWay_nil rfl]
      have hagenda : ∀ q, mainPart p (s.withAgenda q) = .next (t.withAgenda q) := fun q => by
        have h := mainPart_withAgenda q p { s with agenda := [] }
        rw [ht] at h; exact h
      refine ⟨?_, fun hne hcode => ?_⟩
      · rintro rfl
        rw [whileUnderWay_proceed ha]
        exact hagenda rest
      · have hwait : whileUnderWay p s = mainPart p s := by
          rw [whileUnderWay, ha]
          cases a with
          | run c => simp only [isSampleStep_iff, hcode c (.inl rfl), if_false]
          | inParts c => simp only [isSampleStep_iff, hcode c (.inr rfl), if_false]
          | proceed => exact absurd rfl hne
        rw [hwait]
        exact hagenda s.agenda
  case sending =>
    have hbits : frameBits fr.value = [fr.value[6], fr.value[5], fr.value[4], fr.value[3], fr.value[2], fr.value[1],
        fr.value[0], true ^^ fr.value[6] ^^ fr.value[5] ^^ fr.value[4] ^^ fr.value[3] ^^ fr.value[2] ^^ fr.value[1] ^^
          fr.value[0]] := by rw [frameBits, parityBit_eq_xor]
    rw [step_sending hc hs hh ha hm, Transmission.call_eq s.config hfr, hbits]
    refine ⟨fun hnot => ?_, fun ⟨hi, h8, hb⟩ hnone => ?_⟩
    · rw [Transmission.next_of_not_last hnot]; rfl
    · rw [Transmission.next_of_last hi h8 hb, hnone]; rfl
  case shifting =>
    rw [step_of_samplerAt hc hs, samplerPart, ← shiftIn_eq]
    rfl

end Sys2Proof.Machine

namespace Sys2Proof.Machine

/-! ### The sample step (40 R111 to R113) -/

theorem exec_sampleStep (s : State) : exec .sampleStep s = .next (sampleAll s) := rfl

theorem run_then {m n : Nat} {s t : State} {o : Out} (h1 : Host.Core.run core m s = .next t)
    (h2 : Host.Core.run core n t = o) : Host.Core.run core (m + n) s = o :=
  (run_add n h1).trans h2

theorem run_step_then {n : Nat} {s t : State} {o : Out} (h1 : step s = .next t) (h2 : Host.Core.run core n t = o) :
    Host.Core.run core (n + 1) s = o :=
  (run_of_step h1 n).trans h2

/-- The receive registers after a shift and an outcome on each of these faces. -/
def sampleFaces (dropout : Nat) (sample : Mask) : List Face → PerFace RxFace → PerFace RxFace
  | [], r => r
  | f :: fs, r => sampleFaces dropout sample fs (r.set f ((r.get f).step dropout (sample.getLsbD f.val)))

theorem sampleFaces_allFaces (dropout : Nat) (sample : Mask) (r : PerFace RxFace) :
    sampleFaces dropout sample allFaces r = PerFace.ofFn fun f => (r.get f).step dropout (sample.getLsbD f.val) := by
  obtain ⟨r0, r1, r2, r3, r4, r5⟩ := r
  rfl

theorem step_shifting {s : State} {sample : Mask} {f : Face} {fs : List Face} (hc : usable s.config)
    (hs : s.samplerAt = some (.shifting sample (f :: fs))) :
    step s = .next { s.setRx f ((s.rx.get f).shift (sample.getLsbD f.val)) with
      samplerAt := some (.matching sample f fs) } := by
  rw [step_of_samplerAt hc hs]
  rfl

/-- A shift and then the outcome are the sample step on one face. -/
theorem run_shift_match {s : State} {sample : Mask} {f : Face} {fs : List Face} (hc : usable s.config)
    (hs : s.samplerAt = some (.shifting sample (f :: fs))) :
    Host.Core.run core 2 s = .next { s with
      rx := s.rx.set f ((s.rx.get f).step s.config.dropoutZeroSamples (sample.getLsbD f.val))
      samplerAt := samplerStepAt sample fs } := by
  let u : State := { s.setRx f ((s.rx.get f).shift (sample.getLsbD f.val)) with
    samplerAt := some (.matching sample f fs) }
  have hrx : u.rx.get f = (s.rx.get f).shift (sample.getLsbD f.val) := PerFace.get_set_same _ _ _
  have hset : ∀ r : RxFace, u.rx.set f r = s.rx.set f r := PerFace.set_set _ _ _
  rw [run_of_step (step_shifting hc hs), run_one, step_matching (s := u) hc rfl, exec_outcome, State.onRx_eq,
    State.setRx]
  simp only [hrx, hset]
  rfl

theorem run_sampler (sample : Mask) : ∀ (fs : List Face) (s : State), usable s.config →
    s.samplerAt = samplerStepAt sample fs → Host.Core.run core (2 * fs.length) s =
      .next { s with rx := sampleFaces s.config.dropoutZeroSamples sample fs s.rx, samplerAt := none }
  | [], s, _, hs => by
    have hnone : s.samplerAt = none := hs
    rw [← hnone]; rfl
  | f :: fs, s, hc, hs => by
    have hlen : 2 * (f :: fs).length = 2 + 2 * fs.length := by rw [List.length_cons]; omega
    rw [hlen]
    exact run_then (run_shift_match hc hs) (run_sampler sample fs _ hc rfl)

/-- A sample step in parts comes to what the whole one leaves (logs 1, 3). -/
theorem run_sampleStep_inParts {s : State} (hc : usable s.config) (hr : s.ready = true) :
    Host.Core.run core 13 { s with agenda := .inParts (encode .sampleStep) :: s.agenda } = .next (sampleAll s) := by
  obtain ⟨-, -, hs⟩ := s.ready_iff.mp hr
  let s0 : State := { s with agenda := .inParts (encode .sampleStep) :: s.agenda }
  have hstart : step s0 = .next (startSampleStep s) := by
    rw [step_of_pending (s := s0) hc hr rfl, runAction, runCode_of_decode decode_encode_sampleStep rfl]
    rfl
  have hend : sampleAll s = { startSampleStep s with
      rx := sampleFaces s.config.dropoutZeroSamples s.sample allFaces s.rx, samplerAt := none } := by
    rw [sampleFaces_allFaces, ← hs]
    rfl
  rw [hend]
  exact run_step_then hstart (run_sampler s.sample allFaces (startSampleStep s) hc rfl)

/-- Settles O10: each face is shifted and acts on the value after the shift, in one step or in thirteen. -/
theorem sampleStepShiftsAndActsOnEveryFace : Obligations.SampleStepShiftsAndActsOnEveryFace := by
  intro s
  refine ⟨fun hc hr => run_sampleStep_inParts hc hr, sampleAll s, exec_sampleStep s, ?frame, fun f => ?face⟩
  case frame => rw [← Feed.advance_eq_drop]; rfl
  case face =>
    intro b B
    have hb : s.sample.getLsbD f.val = b := by rw [State.sample, Feed.peek_eq_nth]
    have hshift : (s.rx.get f).shift b = { s.rx.get f with bitstream := B } := by
      show (s.rx.get f).withBitstream (shiftIn (s.rx.get f).bitstream b) = _
      rw [shiftIn_eq]; rfl
    have hstep : (sampleAll s).rx.get f =
        RxFace.act (classify s.config.dropoutZeroSamples B) { s.rx.get f with bitstream := B } := by
      rw [sampleAll_rx_get, hb, step_eq_act_shift, hshift]
    rw [← classify_instr]
    exact ⟨_, exec_outcome _ f _, by rw [hstep]; simp, by rw [hstep, RxFace.act_bitstream]⟩

/-- Settles O18: a face takes one outcome in a sample step, and an outcome sets at most one flag. -/
theorem sampleStepRaisesAtMostOneError : Obligations.SampleStepRaisesAtMostOneError := by
  intro s t f h
  cases h
  rw [sampleAll_rx_get, step_eq_act_shift]
  obtain hsame | ⟨k, hk⟩ := RxFace.act_errorBits (classify s.config.dropoutZeroSamples
    ((s.rx.get f).shift (s.sample.getLsbD f.val)).bitstream) ((s.rx.get f).shift (s.sample.getLsbD f.val))
  · exact .inl hsame
  · exact .inr ⟨k.flag, by cases k <;> decide, hk⟩

/-! ### Who writes the receive registers (10 R21, 60 R242) -/

/-- Settles O56: of the forms of an operation, two are the sampler's. -/
theorem samplerTouchesOnlyReceiveState : Obligations.SamplerTouchesOnlyReceiveState := by
  intro i s t hop h
  cases exec_effect h with
  | outcome c f => rfl
  | sampleStep => rfl
  | pulses i es hpart hnot => rw [hop] at hnot; cases hnot
  | answers i r hnot => rw [hop] at hnot; cases hnot
  | answersFromClock i r hnot => rw [hop] at hnot; cases hnot
  | special i f c hrow => obtain rfl | rfl := hrow <;> cases hop
  | _ => cases hop

/-- What an operation other than `RECEIVE_STEP` makes of the receive registers. -/
inductive RxEffect (s : State) : Instr → State → Prop
  | keeps {i : Instr} {t : State} (hop : samplerOp i = false) (hrx : t.rx = s.rx) (hsamples : t.samples = s.samples) :
      RxEffect s i t
  | outcome (c : SampleClass) (f : Face) {t : State} (hrx : t.rx = s.rx.set f ((s.rx.get f).act c)) :
      RxEffect s (c.instr f.val) t
  | sampleStep : RxEffect s .sampleStep (sampleAll s)
  | polls {i : Instr} (f : Face) {t : State} (hrow : i = .irPoll f.val ∨ i = .irGetData f.val)
      (hrx : t.rx = s.rx.set f (s.rx.get f).afterPoll) (hsamples : t.samples = s.samples) : RxEffect s i t
  | readsErrors (f : Face) {t : State} (hrx : t.rx = s.rx.set f (s.rx.get f).clearErrors)
      (hsamples : t.samples = s.samples) : RxEffect s (.irReadErrors f.val) t

theorem Effect.rxEffect {s t : State} {i : Instr} (h : Effect s i t) (hi : i ≠ .receiveStep) : RxEffect s i t := by
  cases h with
  | outcome c f => exact .outcome c f rfl
  | pulses i es hpart hop => exact .keeps hop rfl rfl
  | txPacket m p t hsent =>
    have hf := (packetTx_sends hsent).frame
    exact .keeps rfl (by rw [hf]) (by rw [hf])
  | sampleStep => exact .sampleStep
  | irPoll f => exact .polls f (.inl rfl) rfl rfl
  | takeData f => exact .polls f (.inr rfl) rfl rfl
  | irReadErrors f => exact .readsErrors f rfl rfl
  | receiveStep => exact absurd rfl hi
  | sendStep t hsent =>
    have hf := (sendFaces_sends allFaces hsent).frame
    exact .keeps rfl (by rw [hf]) (by rw [hf])
  | answers i r hop => exact .keeps hop rfl rfl
  | answersFromClock i r hop => exact .keeps hop rfl rfl
  | header f b payload =>
    exact .keeps rfl (by rw [datagramReceive_frame]) (by rw [datagramReceive_frame])
  | special i f c hrow => obtain rfl | rfl := hrow <;> exact .keeps rfl rfl rfl
  | _ => exact .keeps rfl rfl rfl

/-- Only emptied mailboxes and cleared flags tell one state's receive registers from another's. -/
structure OnlyEmptied (r r' : RxFace) : Prop where
  bitstream : r'.bitstream = r.bitstream
  inputBuffer : r'.inputBuffer = r.inputBuffer
  lastValue : r'.lastValue = r.lastValue ∨ r'.lastValue = 0x00
  errorBits : r'.errorBits = r.errorBits ∨ r'.errorBits = 0b0000

theorem OnlyEmptied.refl (r : RxFace) : OnlyEmptied r r := ⟨rfl, rfl, .inl rfl, .inl rfl⟩

theorem OnlyEmptied.trans {r1 r2 r3 : RxFace} (h1 : OnlyEmptied r1 r2) (h2 : OnlyEmptied r2 r3) : OnlyEmptied r1 r3 where
  bitstream := h2.bitstream.trans h1.bitstream
  inputBuffer := h2.inputBuffer.trans h1.inputBuffer
  lastValue := h2.lastValue.elim (fun h => h ▸ h1.lastValue) .inr
  errorBits := h2.errorBits.elim (fun h => h ▸ h1.errorBits) .inr

theorem OnlyEmptied.afterPoll (r : RxFace) : OnlyEmptied r r.afterPoll := by
  cases h : r.present with
  | true => rw [RxFace.afterPoll_of_present h]; exact ⟨rfl, rfl, .inr rfl, .inl rfl⟩
  | false => rw [RxFace.afterPoll_of_empty h]; exact .refl r

theorem OnlyEmptied.clearErrors (r : RxFace) : OnlyEmptied r r.clearErrors := ⟨rfl, rfl, .inl rfl, .inr rfl⟩

/-- Emptying one face leaves the others. -/
theorem OnlyEmptied.set {v : PerFace RxFace} {f : Face} {r : RxFace} (h : OnlyEmptied (v.get f) r) (g : Face) :
    OnlyEmptied (v.get g) ((v.set f r).get g) := by
  rw [PerFace.get_set]
  split
  · subst g; exact h
  · exact .refl _

theorem RxEffect.onlyEmptied {s t : State} {i : Instr} (h : RxEffect s i t) (hop : samplerOp i = false) :
    t.samples = s.samples ∧ ∀ f, OnlyEmptied (s.rx.get f) (t.rx.get f) := by
  cases h with
  | keeps _ hrx hsamples => rw [hrx]; exact ⟨hsamples, fun f => .refl _⟩
  | outcome c f hrx => cases c <;> cases hop
  | sampleStep => cases hop
  | polls f hrow hrx hsamples => rw [hrx]; exact ⟨hsamples, (OnlyEmptied.afterPoll _).set⟩
  | readsErrors f hrx hsamples => rw [hrx]; exact ⟨hsamples, (OnlyEmptied.clearErrors _).set⟩

/-! ### What a receive step does to the receive registers (10 R21, log 7) -/

/-- The operations a receive step's work on the receive registers is made of: sample steps and polls. -/
def IsSampling (j : Instr) : Prop := j = .sampleStep ∨ ∃ g : Face, j = .irPoll g.val

/-- Two states that the sampler and the polls tell apart by nothing but what they return. -/
def SameSampler (s t : State) : Prop := t.rx = s.rx ∧ t.samples = s.samples ∧ t.config = s.config

theorem exec_isSampling {j : Instr} (hj : IsSampling j) {s t : State} (h : SameSampler s t) :
    ∃ s' t', exec j s = .next s' ∧ exec j t = .next t' ∧ SameSampler s' t' := by
  obtain ⟨hrx, hsamples, hconfig⟩ := h
  obtain rfl | ⟨g, rfl⟩ := hj
  · refine ⟨_, _, exec_sampleStep s, exec_sampleStep t, ?_, ?_, hconfig⟩
    · simp only [sampleAll, State.sample, hrx, hsamples, hconfig]
    · simp only [sampleAll, hsamples]
  · refine ⟨_, _, exec_irPoll g s, exec_irPoll g t, ?_, hsamples, hconfig⟩
    simp only [State.returns_rx, State.setRx_rx, hrx]

theorem execAll_cons_of_next {j : Instr} {s u : State} (h : exec j s = .next u) (is : List Instr) :
    execAll (j :: is) s = execAll is u := by
  rw [execAll, h]

theorem execAll_append : ∀ (is : List Instr) {js : List Instr} {s u : State}, execAll is s = .next u →
    execAll (is ++ js) s = execAll js u
  | [], _, _, _, h => by cases h; rfl
  | i :: is, js, s, u, h => by
    cases hi : exec i s with
    | next t =>
      rw [execAll_cons_of_next hi] at h
      rw [List.cons_append, execAll_cons_of_next hi, execAll_append is h]
    | fault r => rw [execAll, hi] at h; cases h
    | refused r => rw [execAll, hi] at h; cases h

theorem execAll_sameSampler : ∀ (is : List Instr), (∀ j ∈ is, IsSampling j) → ∀ {s t : State}, SameSampler s t →
    ∃ s' t', execAll is s = .next s' ∧ execAll is t = .next t' ∧ SameSampler s' t'
  | [], _, s, t, h => ⟨s, t, rfl, rfl, h⟩
  | j :: is, hjs, s, t, h => by
    obtain ⟨hj, his⟩ := List.forall_mem_cons.mp hjs
    obtain ⟨s1, t1, hs1, ht1, h1⟩ := exec_isSampling hj h
    rw [execAll_cons_of_next hs1, execAll_cons_of_next ht1]
    exact execAll_sameSampler is his h1

/-- What sample steps and polls in some order can make of the receive registers and the samples. -/
def SampledTo (s t : State) : Prop :=
  ∃ (is : List Instr) (u : State), (∀ j ∈ is, IsSampling j) ∧ execAll is s = .next u ∧ SameSampler u t

theorem SampledTo.of_same {s t : State} (h : SameSampler s t) : SampledTo s t := ⟨[], s, by simp, rfl, h⟩

theorem SampledTo.trans {s t u : State} (h1 : SampledTo s t) (h2 : SampledTo t u) : SampledTo s u := by
  obtain ⟨is, s1, his, hs1, hrx1, hsamples1, hconfig1⟩ := h1
  obtain ⟨js, t1, hjs, ht1, hrx2, hsamples2, hconfig2⟩ := h2
  obtain ⟨s2, t2, hs2, ht2, hrx, hsamples, hconfig⟩ :=
    execAll_sameSampler js hjs (s := s1) (t := t) ⟨hrx1, hsamples1, hconfig1⟩
  cases ht1.symm.trans ht2
  exact ⟨is ++ js, s2, List.forall_mem_append.mpr ⟨his, hjs⟩, by rw [execAll_append is hs1, hs2],
    hrx2.trans hrx, hsamples2.trans hsamples, hconfig2.trans hconfig⟩

theorem SampledTo.sampleAll (s : State) : SampledTo s (sampleAll s) :=
  ⟨[.sampleStep], _, by simp [IsSampling], rfl, rfl, rfl, rfl⟩

theorem SampledTo.sampleTimes : ∀ (n : Nat) (s : State), SampledTo s (sampleTimes n s)
  | 0, _ => .of_same ⟨rfl, rfl, rfl⟩
  | n + 1, s => (SampledTo.sampleAll s).trans (SampledTo.sampleTimes n _)

theorem SampledTo.preempt (s : State) : SampledTo s (preempt s) :=
  .trans (t := { s with ticks := s.ticks.advance }) (.of_same ⟨rfl, rfl, rfl⟩) (.sampleTimes _ _)

theorem SampledTo.afterPoll (f : Face) (s : State) : SampledTo s (s.setRx f (s.rx.get f).afterPoll) :=
  ⟨[.irPoll f.val], _, by simp [IsSampling], execAll_cons_of_next (exec_irPoll f s) [], rfl, rfl, rfl⟩

theorem SampledTo.pollTimes (f : Face) (again : List CarrierEvent → Bool) : ∀ (n : Nat) (s : State),
    SampledTo s (pollTimes f again n s).2
  | 0, _ => .of_same ⟨rfl, rfl, rfl⟩
  | n + 1, s => by
    rw [Machine.pollTimes]
    split
    · have hpoll : SampledTo (Machine.preempt s) (pollOnce f (Machine.preempt s)) :=
        (SampledTo.afterPoll f _).trans (.of_same ⟨rfl, rfl, rfl⟩)
      exact ((SampledTo.preempt s).trans hpoll).trans (SampledTo.pollTimes f again n _)
    · exact .of_same ⟨rfl, rfl, rfl⟩

theorem SampledTo.packetRx (f : Face) (s : State) : SampledTo s (packetRx f s).state := by
  cases hc : s.config.carrier with
  | faceOnly =>
    rw [packetRx_faceOnly hc]
    exact (SampledTo.preempt s).trans (SampledTo.afterPoll f _)
  | uninterpreted =>
    rw [packetRx_uninterpreted hc]
    exact .trans (t := { s with carrierRx := s.carrierRx.advance }) (.of_same ⟨rfl, rfl, rfl⟩)
      (SampledTo.pollTimes f (carrierAgain f s) (carrierPolls f s) _)

theorem SampledTo.handleReceived (f : Face) (now : Timer) (saw : Bool) (pkt : Option Packet) (s : State) :
    SampledTo s (handleReceived f now saw pkt s) := by
  refine .of_same ⟨?_, ?_, ?_⟩ <;> rw [handleReceived_frame]

theorem SampledTo.afterNow (s : State) : SampledTo s s.afterNow := .of_same ⟨rfl, rfl, rfl⟩

theorem SampledTo.receiveFace (f : Face) (s : State) : SampledTo s (receiveFace f s) :=
  ((SampledTo.afterNow s).trans (SampledTo.packetRx f _)).trans (SampledTo.handleReceived f _ _ _ _)

theorem SampledTo.receiveFaces : ∀ (fs : List Face) (s : State), SampledTo s (receiveFaces fs s)
  | [], _ => .of_same ⟨rfl, rfl, rfl⟩
  | f :: fs, s => (SampledTo.receiveFace f s).trans (SampledTo.receiveFaces fs _)

theorem SampledTo.visitFace (f : Face) (s : State) : SampledTo s (visitFace f s).1 := by
  unfold Machine.visitFace
  simp only
  split
  · exact .receiveFace f s
  · exact ((SampledTo.afterNow s).trans (SampledTo.packetRx f _)).trans (SampledTo.handleReceived f _ _ _ _)
  · exact .packetRx f s
  · exact .packetRx f s

theorem SampledTo.receiveVisit (fs : List Face) (s : State) : SampledTo s (receiveVisit fs s) := by
  cases fs with
  | nil => exact .of_same ⟨rfl, rfl, rfl⟩
  | cons f fs =>
    rcases receiveVisit_cons f fs s with ⟨-, hv⟩ | ⟨r, -, -, hv⟩
    · rw [hv]; exact (SampledTo.receiveFace f s).trans (.of_same ⟨rfl, rfl, rfl⟩)
    · rw [hv]; exact (SampledTo.visitFace f s).trans (.of_same ⟨rfl, rfl, rfl⟩)

/-! ### Leaving the searching state (10 R25) -/

/-- The sync test is the one whose three newest samples are 1 (40 R118). -/
theorem newest_of_classify_sync {n : Nat} {B : Byte} (h : classify n B = .sync) : B &&& 0x07 = 0x07 := by
  rw [classify_eq] at h
  by_contra hne
  rw [if_neg hne] at h
  split_ifs at h

/-- A sample that takes a face out of searching completes a sync. -/
theorem RxFace.step_leaves_searching {n : Nat} {b : Bool} {r : RxFace} (h0 : r.inputBuffer = 0)
    (h1 : (r.step n b).inputBuffer ≠ 0) :
    (r.step n b).inputBuffer = 1 ∧ (r.step n b).bitstream &&& 0x07 = 0x07 := by
  obtain hsame | ⟨hsync, hone⟩ := RxFace.act_searching (classify n (r.shift b).bitstream) (r := r.shift b) h0
  · exact absurd hsame h1
  · refine ⟨hone, ?_⟩
    rw [step_eq_act_shift, act_bitstream]
    exact newest_of_classify_sync hsync

/-- A run of sample steps and polls that takes a face out of searching has a sample step that does it. -/
theorem execAll_leaves_searching {f : Face} : ∀ (is : List Instr), (∀ j ∈ is, IsSampling j) → ∀ {s t : State},
    execAll is s = .next t → (s.rx.get f).inputBuffer = 0x00 → (t.rx.get f).inputBuffer ≠ 0x00 →
    ∃ is1 u v is2, (∀ j ∈ is1, IsSampling j) ∧ execAll is1 s = .next u ∧ exec .sampleStep u = .next v ∧
      (∀ j ∈ is2, IsSampling j) ∧ execAll is2 v = .next t ∧ (u.rx.get f).inputBuffer = 0x00 ∧
      (v.rx.get f).inputBuffer = 0x01 ∧ (v.rx.get f).bitstream &&& 0x07 = 0x07
  | [], _, s, t, h, h0, h1 => by cases h; exact absurd h0 h1
  | j :: is, hjs, s, t, h, h0, h1 => by
    obtain ⟨hj, his⟩ := List.forall_mem_cons.mp hjs
    obtain ⟨u, -, hu, -, -⟩ := exec_isSampling hj (s := s) (t := s) ⟨rfl, rfl, rfl⟩
    rw [execAll_cons_of_next hu] at h
    by_cases hsearching : (u.rx.get f).inputBuffer = 0x00
    · obtain ⟨is1, v, w, is2, his1, hv, hrest⟩ := execAll_leaves_searching is his h hsearching h1
      exact ⟨j :: is1, v, w, is2, List.forall_mem_cons.mpr ⟨hj, his1⟩, by rw [execAll_cons_of_next hu, hv], hrest⟩
    · obtain rfl | ⟨g, rfl⟩ := hj
      · refine ⟨[], s, u, is, by simp, rfl, hu, his, h, h0, ?_⟩
        cases hu
        rw [sampleAll_rx_get] at hsearching ⊢
        exact RxFace.step_leaves_searching h0 hsearching
      · rw [exec_irPoll] at hu
        cases hu
        have hkeeps : OnlyEmptied (s.rx.get f) ((s.rx.set g (s.rx.get g).afterPoll).get f) :=
          (OnlyEmptied.afterPoll _).set f
        exact absurd (hkeeps.inputBuffer.trans h0) hsearching

theorem RxEffect.leaves_searching {s t : State} {i : Instr} {f : Face} (h : RxEffect s i t)
    (h0 : (s.rx.get f).inputBuffer = 0x00) (h1 : (t.rx.get f).inputBuffer ≠ 0x00) :
    (t.rx.get f).inputBuffer = 0x01 ∧
      (i = .symSync f.val ∨ (i = .sampleStep ∧ (t.rx.get f).bitstream &&& 0x07 = 0x07)) := by
  cases hop : samplerOp i with
  | false => exact absurd (((h.onlyEmptied hop).2 f).inputBuffer.trans h0) h1
  | true =>
    cases h with
    | keeps hnot => rw [hop] at hnot; cases hnot
    | outcome c g hrx =>
      rw [hrx, PerFace.get_set] at h1 ⊢
      split at h1
      next hfg =>
        subst hfg
        obtain hsame | ⟨rfl, hone⟩ := RxFace.act_searching c h0
        · exact absurd hsame h1
        · rw [if_pos rfl]; exact ⟨hone, .inl rfl⟩
      next => exact absurd h0 h1
    | sampleStep =>
      rw [sampleAll_rx_get] at h1 ⊢
      obtain ⟨hone, hones⟩ := RxFace.step_leaves_searching h0 h1
      exact ⟨hone, .inr ⟨rfl, hones⟩⟩
    | polls g hrow => obtain rfl | rfl := hrow <;> cases hop
    | readsErrors g => cases hop

/-- Settles O19: an operation leaves searching by a sync, and a receive step is a run of sample steps and polls. -/
theorem onlyASyncLeavesSearching : Obligations.OnlyASyncLeavesSearching := by
  intro i s t f h h0 h1
  refine ⟨fun hi => ((exec_effect h).rxEffect hi).leaves_searching h0 h1, ?_⟩
  rintro rfl
  cases h
  obtain ⟨is, u, his, hu, hrx, hsamples, -⟩ := SampledTo.receiveFaces allFaces s
  obtain ⟨is1, v, w, is2, his1, hv, hw, his2, hend, hv0, hw1, hw7⟩ :=
    execAll_leaves_searching is his hu h0 (by rw [← hrx]; exact h1)
  exact ⟨is1, v, w, his1, hv, hw, ⟨is2, u, his2, hend, hrx, hsamples⟩, hv0, hw1, hw7⟩

end Sys2Proof.Machine

namespace Sys2Proof.Machine

/-! ### What the main loop does not see of the receive registers (10 R21) -/

theorem mapNext_next (g : State → State) (t : State) : mapNext g (.next t) = .next (g t) := rfl

theorem mapNext_withFace (g : State → State) (f : Nat) (k : Face → Out) :
    mapNext g (withFace f k) = withFace f fun h => mapNext g (k h) := by
  unfold withFace
  split <;> rfl

theorem mapNext_withMask (g : State → State) (m : Mask) (k : Out) :
    mapNext g (withMask m k) = withMask m (mapNext g k) := by
  unfold withMask
  split <;> rfl

theorem mapNext_withPhy (g : State → State) (v : Byte) (k : Phy → Out) :
    mapNext g (withPhy v k) = withPhy v fun u => mapNext g (k u) := by
  unfold withPhy
  split <;> rfl

theorem mapNext_withPacket (g : State → State) (bytes : List Byte) (k : Packet → Out) :
    mapNext g (withPacket bytes k) = withPacket bytes fun p => mapNext g (k p) := by
  cases bytes with
  | nil => rfl
  | cons b bs => simp only [withPacket]; split <;> rfl

theorem mapNext_withPayload (g : State → State) (bytes : List Byte) (k : Out) :
    mapNext g (withPayload bytes k) = withPayload bytes (mapNext g k) := by
  cases bytes with
  | nil => rfl
  | cons b bs => simp only [withPayload]; split <;> rfl

/-- The operations of the main loop that read a receive register: the consumer's, and those of the receive path. -/
def consumes : Instr → Bool
  | .irPoll _ => true
  | .irGetData _ => true
  | .irReadErrors _ => true
  | .receiveStep => true
  | _ => false

/-- A state with other receive registers. -/
def State.withRx (s : State) (r : PerFace RxFace) : State := { s with rx := r }

theorem packetTx_withRx (r : PerFace RxFace) (m : Mask) (p : Packet) (s : State) :
    packetTx m p (s.withRx r) = (packetTx m p s).map (·.withRx r) := by
  have h := packetTx_beside r s.samples s.agenda s.mainAt m p s
  rw [show s.withRx r = s.beside r s.samples s.agenda s.mainAt from rfl, h]
  cases ht : packetTx m p s with
  | error e => rfl
  | ok t =>
    have hf := (packetTx_sends ht).frame
    simp only [Except.map]
    rw [hf]; rfl

theorem sendFaces_withRx (r : PerFace RxFace) (fs : List Face) (s : State) :
    sendFaces fs (s.withRx r) = (sendFaces fs s).map (·.withRx r) := by
  have h := sendFaces_beside r s.samples s.agenda s.mainAt fs s
  rw [show s.withRx r = s.beside r s.samples s.agenda s.mainAt from rfl, h]
  cases ht : sendFaces fs s with
  | error e => rfl
  | ok t =>
    have hf := (sendFaces_sends fs ht).frame
    simp only [Except.map]
    rw [hf]; rfl

theorem datagramReceive_withRx (r : PerFace RxFace) (f : Face) (h : Byte) (payload : List Byte) (s : State) :
    datagramReceive f h payload (s.withRx r) = (datagramReceive f h payload s).withRx r := by
  have hb := datagramReceive_beside r s.samples s.agenda s.mainAt f h payload s
  rw [show s.withRx r = s.beside r s.samples s.agenda s.mainAt from rfl, hb, datagramReceive_frame]
  rfl

/-- An operation of the main loop that reads no receive register does the same whatever they hold. -/
theorem exec_withRx (r : PerFace RxFace) {i : Instr} (hop : samplerOp i = false) (hi : consumes i = false) (s : State) :
    exec i (s.withRx r) = mapNext (·.withRx r) (exec i s) := by
  cases i with
  | txsSync m | txsZero m | txsOne m =>
    simp only [exec, execTxsSync, execTxsZero, execTxsOne, mapNext_withMask]; rfl
  | txByte m v => simp only [exec, execTxByte, mapNext_withMask, mapNext_withPhy]; rfl
  | txPacket m bytes =>
    simp only [exec, execTxPacket, mapNext_withMask, mapNext_withPacket, packetTx_withRx, sent_map]
  | sendStep => simp only [exec, execSendStep, sendFaces_withRx, sent_map]
  | setOutgoingValueAll v => rfl
  | isAlone | enterSleep | notifyActivity => rfl
  | setOutgoingValue f v => simp only [exec, execSetOutgoingValue, mapNext_withFace]; rfl
  | setPostponeSleep f b => simp only [exec, execSetPostponeSleep, mapNext_withFace]; rfl
  | getIncomingValue f | didValueChange f | isExpired f | specialSleep f | specialWake f =>
    simp only [exec, execGetIncomingValue, execDidValueChange, execIsExpired, execSpecialSleep, execSpecialWake,
      mapNext_withFace]
    rfl
  | isDatagramPending f | isDatagramReady f | datagramLength f | getDatagram f | consumeDatagram f =>
    simp only [exec, execIsDatagramPending, execIsDatagramReady, execDatagramLength, execGetDatagram,
      execConsumeDatagram, mapNext_withFace]
    rfl
  | sendDatagram f bytes =>
    have hcan : ∀ g, canArm g bytes (s.withRx r) = canArm g bytes s := fun _ => rfl
    simp only [exec, execSendDatagram, mapNext_withFace, mapNext_withPayload, hcan, mapNext_next,
      apply_ite (State.withRx · r)]
    rfl
  | header f h payload =>
    simp only [exec, execHeader, mapNext_withFace, datagramReceive_withRx]; rfl
  | irPoll f | irGetData f | irReadErrors f => cases hi
  | receiveStep => cases hi
  | _ => cases hop

/-- The face operand of an operation that completes is a face. -/
theorem face_of_next {i : Instr} {f : Nat} {s t : State} (hf : faceOperand i = some f) (h : exec i s = .next t) :
    ∃ g : Face, f = g.val := by
  by_cases hlt : f < 6
  · exact ⟨⟨f, hlt⟩, rfl⟩
  · rw [faceAboveFiveIsRefused i s f hf (Nat.not_lt.mp hlt)] at h
    cases h

/-- Two faces that a consumer cannot tell apart: the sampler's own registers may differ. -/
def SameMail (r r' : RxFace) : Prop := r'.lastValue = r.lastValue ∧ r'.errorBits = r.errorBits

theorem SameMail.present {r r' : RxFace} (h : SameMail r r') : r'.present = r.present := by
  rw [RxFace.present, RxFace.present, h.1]

theorem SameMail.mailValue {r r' : RxFace} (h : SameMail r r') : r'.mailValue = r.mailValue := by
  rw [RxFace.mailValue, RxFace.mailValue, h.1]

theorem SameMail.pollValue {r r' : RxFace} (h : SameMail r r') : r'.pollValue = r.pollValue := by
  rw [RxFace.pollValue, RxFace.pollValue, h.present, h.mailValue]

theorem SameMail.afterPoll {r r' : RxFace} (h : SameMail r r') : SameMail r.afterPoll r'.afterPoll := by
  rw [RxFace.afterPoll, RxFace.afterPoll, h.present]
  split
  · exact ⟨rfl, h.2⟩
  · exact h

theorem SameMail.set {v v' : PerFace RxFace} (h : ∀ g, SameMail (v.get g) (v'.get g)) (f : Face) {r r' : RxFace}
    (hr : SameMail r r') (g : Face) : SameMail ((v.set f r).get g) ((v'.set f r').get g) := by
  rw [PerFace.get_set, PerFace.get_set]
  split
  · exact hr
  · exact h g

/-- An operation of the main loop does the same whatever the sampler's own registers hold. -/
theorem exec_sameMail {i : Instr} {s t : State} {r : PerFace RxFace} (hop : samplerOp i = false) (hi : i ≠ .receiveStep)
    (h : exec i s = .next t) (hr : ∀ f, SameMail (s.rx.get f) (r.get f)) :
    ∃ r', exec i (s.withRx r) = .next (t.withRx r') ∧ ∀ f, SameMail (t.rx.get f) (r'.get f) := by
  have hother : consumes i = false →
      ∃ r', exec i (s.withRx r) = .next (t.withRx r') ∧ ∀ f, SameMail (t.rx.get f) (r'.get f) := by
    intro hc
    refine ⟨r, by rw [exec_withRx r hop hc, h]; rfl, ?_⟩
    cases (exec_effect h).rxEffect hi with
    | keeps hnot hrx => rw [hrx]; exact hr
    | outcome c f => cases c <;> cases hop
    | sampleStep => cases hop
    | polls f hrow => obtain rfl | rfl := hrow <;> cases hc
    | readsErrors f => cases hc
  cases i with
  | irPoll f =>
    obtain ⟨g, rfl⟩ := face_of_next rfl h
    rw [exec_irPoll] at h ⊢
    cases h
    exact ⟨r.set g (r.get g).afterPoll, by rw [State.withRx, ← (hr g).pollValue]; rfl,
      SameMail.set hr g (hr g).afterPoll⟩
  | irGetData f =>
    obtain ⟨g, rfl⟩ := face_of_next rfl h
    have hpresent : ((s.withRx r).rx.get g).present = (s.rx.get g).present := (hr g).present
    rw [exec_irGetData] at h ⊢
    rw [hpresent]
    split at h <;> cases h
    next hp =>
      rw [if_pos hp]
      exact ⟨r.set g (r.get g).afterPoll, by rw [takeData, takeData, ← (hr g).mailValue]; rfl,
        SameMail.set hr g (hr g).afterPoll⟩
    next hp =>
      rw [if_neg hp]
      exact ⟨r, rfl, hr⟩
  | irReadErrors f =>
    obtain ⟨g, rfl⟩ := face_of_next rfl h
    rw [exec_irReadErrors] at h ⊢
    cases h
    exact ⟨r.set g (r.get g).clearErrors, by rw [← (hr g).2]; rfl, SameMail.set hr g ⟨(hr g).1, rfl⟩⟩
  | receiveStep => exact absurd rfl hi
  | _ => exact hother rfl

/-! ### Steps outside the sampling step (10 R21) -/

/-- A run of sample steps and polls that takes no sample is one of polls. -/
theorem execAll_onlyEmptied : ∀ (is : List Instr), (∀ j ∈ is, IsSampling j) → ∀ {s t : State}, execAll is s = .next t →
    s.samples.taken ≤ t.samples.taken ∧
    (t.samples.taken = s.samples.taken → ∀ f, OnlyEmptied (s.rx.get f) (t.rx.get f))
  | [], _, s, t, h => by cases h; exact ⟨le_rfl, fun _ f => .refl _⟩
  | j :: is, hjs, s, t, h => by
    obtain ⟨hj, his⟩ := List.forall_mem_cons.mp hjs
    obtain ⟨u, -, hu, -, -⟩ := exec_isSampling hj (s := s) (t := s) ⟨rfl, rfl, rfl⟩
    rw [execAll_cons_of_next hu] at h
    obtain ⟨hle, hemptied⟩ := execAll_onlyEmptied is his h
    obtain rfl | ⟨g, rfl⟩ := hj
    · cases hu
      have htaken : (sampleAll s).samples.taken = s.samples.taken + 1 := rfl
      exact ⟨by omega, fun heq => by omega⟩
    · rw [exec_irPoll] at hu
      cases hu
      exact ⟨hle, fun heq f => ((OnlyEmptied.afterPoll _).set f).trans (hemptied heq f)⟩

theorem SampledTo.onlyEmptied {s t : State} (h : SampledTo s t) (hsamples : t.samples = s.samples) (f : Face) :
    OnlyEmptied (s.rx.get f) (t.rx.get f) := by
  obtain ⟨is, u, his, hu, hrx, hsame, -⟩ := h
  rw [hrx]
  exact (execAll_onlyEmptied is his hu).2 (by rw [← hsame, hsamples]) f

theorem sampleAll_samples_ne (s : State) : (sampleAll s).samples ≠ s.samples :=
  fun h => Nat.succ_ne_self _ (congrArg Feed.taken h)

/-- A step outside the sampling step can only empty mailboxes and clear flags. -/
theorem Stepped.onlyEmptied {s t : State} (h : Stepped s t) (hsamples : t.samples = s.samples)
    (hat : s.samplerAt = none) (f : Face) : OnlyEmptied (s.rx.get f) (t.rx.get f) := by
  have hsends : ∀ (x : Option Transmission) (after : Option SendRest) (u : State), u.rx = s.rx →
      OnlyEmptied (s.rx.get f) ((sendingAt x after u).rx.get f) := by
    intro x after u hu
    have hrx : (sendingAt x after u).rx = u.rx := (congrArg State.rx (sendingAt_sends x after u).frame :)
    rw [hrx, hu]; exact .refl _
  cases h with
  | samplerEnds hne | shifts _ _ _ hne | acts _ _ _ hne => exact absurd hat hne
  | holdsOn => exact (SampledTo.preempt s).onlyEmptied hsamples f
  | takesHeld g => exact ((SampledTo.preempt s).onlyEmptied hsamples f).trans ((OnlyEmptied.afterPoll _).set f)
  | samples rest | beginsSampling rest => exact absurd hsamples (sampleAll_samples_ne s)
  | runs i rest t hpart hdoes hexec =>
    by_cases hi : i = .receiveStep
    · subst hi; cases hexec
      exact (SampledTo.receiveFaces allFaces _).onlyEmptied hsamples f
    · cases hop : samplerOp i with
      | false => exact (((exec_effect hexec).rxEffect hi).onlyEmptied hop).2 f
      | true =>
        cases i with
        | sampleStep => cases hexec; exact absurd hsamples (sampleAll_samples_ne s)
        | symZero _ | symOneAdj _ | symOneSkew _ | symSync _ | rxDropout _ | rxNoise1011 _ | rxNoise1101 _
        | rxNoise10101 _ | rxNone _ => cases hpart
        | _ => cases hop
  | handsOver rest frs after u hu hmask => exact hsends _ after u (by rw [hu])
  | sends rest x after hx hdoes => exact hsends _ after _ rfl
  | receives rest fs hdoes => exact (SampledTo.receiveVisit fs _).onlyEmptied hsamples f
  | treats rest r fs t hdoes hexec =>
    have hi : r.instr ≠ .receiveStep := by cases r <;> exact Instr.noConfusion
    have hop : samplerOp r.instr = false := by cases r <;> rfl
    exact (((exec_effect hexec).rxEffect hi).onlyEmptied hop).2 f
  | _ => exact .refl _

/-- Which operation empties which register. -/
theorem RxEffect.emptied {s t : State} {i : Instr} (h : RxEffect s i t) (hop : samplerOp i = false) (f : Face) :
    ((t.rx.get f).lastValue = (s.rx.get f).lastValue ∨
      ((t.rx.get f).lastValue = 0x00 ∧ (i = .irPoll f.val ∨ i = .irGetData f.val))) ∧
    ((t.rx.get f).errorBits = (s.rx.get f).errorBits ∨
      ((t.rx.get f).errorBits = 0b0000 ∧ i = .irReadErrors f.val)) := by
  cases h with
  | keeps _ hrx => rw [hrx]; exact ⟨.inl rfl, .inl rfl⟩
  | outcome c g => cases c <;> cases hop
  | sampleStep => cases hop
  | polls g hrow hrx =>
    rw [hrx, PerFace.get_set]
    split
    next hfg =>
      subst hfg
      rw [RxFace.afterPoll]
      split
      · exact ⟨.inr ⟨rfl, hrow⟩, .inl rfl⟩
      · exact ⟨.inl rfl, .inl rfl⟩
    next => exact ⟨.inl rfl, .inl rfl⟩
  | readsErrors g hrx =>
    rw [hrx, PerFace.get_set]
    split
    next hfg => subst hfg; exact ⟨.inl rfl, .inr ⟨rfl, rfl⟩⟩
    next => exact ⟨.inl rfl, .inl rfl⟩

/-- Settles O57: an operation by its effect on the receive registers, a receive step as a run of sample steps and polls, a
step by its forms. -/
theorem mainLoopOnlyClearsReceiveState : Obligations.MainLoopOnlyClearsReceiveState := by
  refine ⟨fun i s t hop hi h => ?operation, fun s t h => ?receiveStep, fun s t f h hsamples hat => ?step⟩
  case operation =>
    have heffect := (exec_effect h).rxEffect hi
    obtain ⟨hsamples, hemptied⟩ := heffect.onlyEmptied hop
    refine ⟨hsamples, fun f => ⟨(hemptied f).bitstream, (hemptied f).inputBuffer, ?_⟩, fun r hr => ?_⟩
    · exact heffect.emptied hop f
    · exact exec_sameMail hop hi h hr
  case receiveStep =>
    cases h
    obtain ⟨is, u, his, hu, hrx, hsamples, -⟩ := SampledTo.receiveFaces allFaces s
    exact ⟨is, u, his, hu, hrx, hsamples⟩
  case step =>
    obtain ⟨hbits, hbuffer, hlast, herr⟩ := (step_stepped h).onlyEmptied hsamples hat f
    exact ⟨hbits, hbuffer, hlast, herr⟩

end Sys2Proof.Machine

namespace Sys2Proof.Machine

/-! ### The calls of a transmission (42 R155, R158) -/

@[simp] theorem frameTrace_length (cfg : Config) (m : Mask) (v : Phy) : (frameTrace cfg m v).length = 18 := rfl

theorem framesTrace_cons (cfg : Config) (fr : Frame) (frs : List Frame) :
    framesTrace cfg (fr :: frs) = frameTrace cfg fr.mask fr.value ++ framesTrace cfg frs := rfl

theorem framesTrace_singleton (cfg : Config) (m : Mask) (v : Phy) :
    framesTrace cfg [⟨m, v⟩] = frameTrace cfg m v := by
  rw [framesTrace_cons]
  exact List.append_nil _

theorem framesTrace_length (cfg : Config) : ∀ frs : List Frame, (framesTrace cfg frs).length = 18 * frs.length
  | [] => rfl
  | fr :: frs => by
    rw [framesTrace_cons, List.length_append, framesTrace_length cfg frs, frameTrace_length, List.length_cons]
    omega

theorem framesTrace_drop (cfg : Config) : ∀ (b : Nat) (frs : List Frame),
    (framesTrace cfg frs).drop (18 * b) = framesTrace cfg (frs.drop b)
  | 0, _ => rfl
  | b + 1, [] => by rw [List.drop_nil]; exact List.drop_nil
  | b + 1, fr :: frs => by
    have h18 : 18 * (b + 1) = (frameTrace cfg fr.mask fr.value).length + 18 * b := by rw [frameTrace_length]; omega
    rw [framesTrace_cons, h18, ← List.drop_drop, List.drop_left, List.drop_succ_cons, framesTrace_drop cfg b frs]

/-- How many calls of a transmission were made: 18 a frame, two a symbol. -/
def Transmission.position (x : Transmission) : Nat := 18 * x.byte + (2 * x.symbol.val + x.idle.toNat)

/-- The calls a transmission has left. -/
def Transmission.left (cfg : Config) (x : Transmission) : List TxEvent := (framesTrace cfg x.frames).drop x.position

theorem symbolGroup_call (cfg : Config) (fr : Frame) (k : Fin 9) (idle : Bool) :
    ((symbolGroup cfg fr k).drop idle.toNat).take 1 =
      ((frameTrace cfg fr.mask fr.value).drop (2 * k.val + idle.toNat)).take 1 := by
  fin_cases k <;> cases idle <;> rfl

/-- The next call is the one the position points at. -/
theorem Transmission.call_eq_take (cfg : Config) {x : Transmission} (h : x.byte < x.frames.length) :
    x.call cfg = (x.left cfg).take 1 := by
  have hj : 2 * x.symbol.val + x.idle.toNat < 18 := by
    have := x.symbol.isLt
    have := x.idle.toNat_le
    omega
  have hleft : x.left cfg = ((frameTrace cfg x.frames[x.byte].mask x.frames[x.byte].value).drop
      (2 * x.symbol.val + x.idle.toNat)) ++ framesTrace cfg (x.frames.drop (x.byte + 1)) := by
    rw [left, position, ← List.drop_drop, framesTrace_drop, List.drop_eq_getElem_cons h, framesTrace_cons,
      List.drop_append_of_le_length (by rw [frameTrace_length]; omega)]
  rw [call, List.getElem?_eq_getElem h, hleft, List.take_append_of_le_length (by simp; omega)]
  exact symbolGroup_call cfg _ _ _

/-- After a call a transmission has gone on by one, or is at its end. -/
theorem Transmission.next_position {x : Transmission} (h : x.byte < x.frames.length) :
    (∃ y, x.next = some y ∧ y.frames = x.frames ∧ y.byte < y.frames.length ∧ y.position = x.position + 1) ∨
    (x.next = none ∧ x.position + 1 = 18 * x.frames.length) := by
  have hlt := x.symbol.isLt
  unfold next
  split_ifs with hi hs hb
  · exact .inl ⟨_, rfl, rfl, h, by simp [position, hi]; omega⟩
  · have hi : x.idle = true := by simpa using hi
    have hsucc : (x.symbol + 1).val = x.symbol.val + 1 := by rw [Fin.val_add]; simp; omega
    exact .inl ⟨_, rfl, rfl, h, by simp only [position, hi, hsucc, Bool.toNat_true, Bool.toNat_false]; omega⟩
  · have hi : x.idle = true := by simpa using hi
    exact .inl ⟨_, rfl, rfl, hb, by simp only [position, hi, Bool.toNat_true, Bool.toNat_false, Fin.val_zero]; omega⟩
  · have hi : x.idle = true := by simpa using hi
    exact .inr ⟨rfl, by simp only [position, hi, Bool.toNat_true]; omega⟩

/-- A transmission at a call of one of its frames makes it, and has the rest left. -/
theorem Transmission.left_cases (cfg : Config) {x : Transmission} (h : x.byte < x.frames.length) :
    ∃ e, x.call cfg = [e] ∧
      ((∃ y, x.next = some y ∧ y.byte < y.frames.length ∧ x.left cfg = e :: y.left cfg) ∨
        (x.next = none ∧ x.left cfg = [e])) := by
  have hlen : (x.left cfg).length = 18 * x.frames.length - x.position := by
    rw [left, List.length_drop, framesTrace_length]
  have hpos : x.position < 18 * x.frames.length := by
    have := x.symbol.isLt
    have := x.idle.toNat_le
    rw [position]
    omega
  rw [call_eq_take cfg h]
  rcases hl : x.left cfg with _ | ⟨e, rest⟩
  · rw [hl, List.length_nil] at hlen
    omega
  · refine ⟨e, rfl, ?_⟩
    rw [hl, List.length_cons] at hlen
    obtain ⟨y, hy, hframes, hbyte, hyp⟩ | ⟨hnone, hend⟩ := next_position h
    · refine .inl ⟨y, hy, hbyte, ?_⟩
      have hrest : y.left cfg = (x.left cfg).drop 1 := by rw [left, left, hframes, hyp, List.drop_drop]
      rw [hrest, hl]; rfl
    · have hnil : rest = [] := List.eq_nil_of_length_eq_zero (by omega)
      exact .inr ⟨hnone, by rw [hnil]⟩

/-! ### A transmission in parts (42 R158; logs 1, 24) -/

/-- The main loop can go on: no sample step in parts is under way, and nothing holds it. -/
def Runnable (s : State) : Prop := usable s.config ∧ s.samplerAt = none ∧ s.hold = none

theorem sendingDone_transmit (after : Option SendRest) (s : State) (p : Option MainPosition) (e : TxEvent)
    (es : List TxEvent) :
    sendingDone after ({ s.transmit [e] with mainAt := p }.transmit es) = sendingDone after (s.transmit (e :: es)) := by
  have happend : s.txTrace ++ [e] ++ es = s.txTrace ++ (e :: es) := by rw [List.append_assoc]; rfl
  cases after <;>
    · simp only [sendingDone, reschedule, State.transmit, State.onFc, State.setFc]
      rw [happend]

/-- A transmission makes the calls it has left, one a step, and ends. -/
theorem run_sending {after : Option SendRest} : ∀ (n : Nat) {s : State} {x : Transmission}, Runnable s →
    s.agenda = [] → x.byte < x.frames.length → s.mainAt = some (.sending x after) → (x.left s.config).length = n →
    Host.Core.run core n s = .next (sendingDone after (s.transmit (x.left s.config)))
  | 0, s, x, _, _, hx, _, hn => by
    obtain ⟨e, -, ⟨y, -, -, hl⟩ | ⟨-, hl⟩⟩ := Transmission.left_cases s.config hx <;>
      · rw [hl] at hn; cases hn
  | n + 1, s, x, hrun, ha, hx, hm, hn => by
    obtain ⟨hc, hs, hh⟩ := hrun
    have hstep := step_sending hc hs hh ha hm
    obtain ⟨e, hcall, ⟨y, hy, hyb, hl⟩ | ⟨hnone, hl⟩⟩ := Transmission.left_cases s.config hx
    · rw [hcall, hy] at hstep
      rw [hl] at hn ⊢
      refine run_step_then hstep ?_
      have hlen : (y.left s.config).length = n := Nat.succ_inj.mp hn
      have ih := run_sending n (s := { s.transmit [e] with mainAt := some (.sending y after) }) (x := y)
        ⟨hc, hs, hh⟩ ha hyb rfl hlen
      exact ih.trans (congrArg Host.Outcome.next (sendingDone_transmit after s _ e _))
    · rw [hcall, hnone] at hstep
      rw [hl] at hn ⊢
      obtain rfl : 0 = n := Nat.succ_inj.mp hn
      exact run_step_then hstep rfl

/-- A transmission of a list of frames makes all their calls and ends. -/
theorem run_frames {s : State} (frs : List Frame) (after : Option SendRest) (hrun : Runnable s) (ha : s.agenda = []) :
    Host.Core.run core (framesTrace s.config frs).length (sendingAt (Transmission.start frs) after s) =
      .next (sendingDone after (s.transmit (framesTrace s.config frs))) := by
  cases frs with
  | nil =>
    have hnone : s.transmit [] = s := by rw [State.transmit, List.append_nil]
    show Host.Outcome.next (sendingDone after s) = .next (sendingDone after (s.transmit []))
    rw [hnone]
  | cons fr frs =>
    have h := run_sending (after := after) _ (s := { s with mainAt := some (.sending ⟨fr :: frs, 0, 0, false⟩ after) })
      (x := ⟨fr :: frs, 0, 0, false⟩) hrun ha (Nat.succ_pos _) rfl rfl
    refine h.trans ?_
    cases after <;> rfl

theorem sendingDone_none {s : State} (h : s.mainAt = none) : sendingDone none s = s := by
  rw [sendingDone, ← h]

theorem step_inParts {s : State} {c : Code} {i : Instr} {rest : List Action} (hc : usable s.config) (hr : s.ready = true)
    (hi : decode c = .ok i) (hpart : partOnly i = false) :
    step { s with agenda := .inParts c :: rest } = start i { s with agenda := rest } := by
  rw [step_of_pending (s := { s with agenda := .inParts c :: rest }) (rest := rest) hc hr rfl, runAction,
    runCode_of_decode hi hpart]

theorem step_inParts_alone {s : State} {c : Code} {i : Instr} (hc : usable s.config) (hr : s.ready = true)
    (ha : s.agenda = []) (hi : decode c = .ok i) (hpart : partOnly i = false) :
    step { s with agenda := [.inParts c] } = start i s := by
  rw [step_inParts hc hr hi hpart, ← ha]

theorem Runnable.of_ready {s : State} (hc : usable s.config) (hr : s.ready = true) : Runnable s :=
  ⟨hc, (s.ready_iff.mp hr).2.2, (s.ready_iff.mp hr).1⟩

theorem decode_encode_txByte {m : Mask} {v : Byte} (hm : m ≠ 0) (hv : v.toNat < 128) :
    decode (encode (.txByte m v)) = .ok (.txByte m v) :=
  decodeOfEncodeIsIdentity _ (by simp [Instr.wellFormed, maskOk, phyOk, hv]; exact hm)

theorem start_txByte {m : Mask} {v : Byte} (hm : m ≠ 0) (hv : v.toNat < 128) (s : State) :
    start (.txByte m v) s = .next (sendingAt (Transmission.start [⟨m, v.setWidth 7⟩]) none s) := by
  rw [start, withMask_ne hm, withPhy_lt hv]

theorem run_txByte_inParts {m : Mask} {v : Byte} {s : State} (hm : m ≠ 0) (hv : v.toNat < 128) (hc : usable s.config)
    (hr : s.ready = true) (ha : s.agenda = []) :
    Host.Core.run core 19 { s with agenda := [.inParts (encode (.txByte m v))] } =
      .next (s.transmit (frameTrace s.config m (v.setWidth 7))) := by
  have hstep := step_inParts_alone hc hr ha (decode_encode_txByte hm hv) rfl
  rw [start_txByte hm hv] at hstep
  have hrun := run_frames [⟨m, v.setWidth 7⟩] none (Runnable.of_ready hc hr) ha
  have hmain : s.mainAt = none := (s.ready_iff.mp hr).2.1
  rw [framesTrace_singleton, sendingDone_none (s := s.transmit _) hmain] at hrun
  exact run_step_then hstep hrun

/-- Settles O26: a frame's groups are its bits, and its 18 calls one by one come to the same. -/
theorem txByteSendsTheFrame : Obligations.TxByteSendsTheFrame := by
  intro m v s hm hv
  refine ⟨?whole, fun hc hr ha => ?parts⟩
  case whole =>
    have hbits : frameBits (v.setWidth 7) = [v[6], v[5], v[4], v[3], v[2], v[1], v[0],
        true ^^ v[6] ^^ v[5] ^^ v[4] ^^ v[3] ^^ v[2] ^^ v[1] ^^ v[0]] := by
      rw [frameBits, parityBit_eq_xor]
      simp only [BitVec.getElem_setWidth, BitVec.getLsbD_eq_getElem, Nat.reduceLT]
    rw [exec_txByte hm hv, frameTrace, hbits]
    rfl
  case parts => exact (run_txByte_inParts hm hv hc hr ha).trans (exec_txByte hm hv s).symm

/-! ### Flashes (42 R155) -/

theorem flashes_frameTrace (cfg : Config) (m : Mask) (v : Phy) :
    flashes (frameTrace cfg m v) = 4 + ((frameBits v).map fun b => if b then 2 else 1).sum := by
  simp [flashes, frameTrace, syncGroup, bitGroup, frameBits, Config.syncPulses]

theorem flashes_frameBits : ∀ v : Phy,
    4 + ((frameBits v).map fun b => if b then 2 else 1).sum = 12 + popcount v + (1 - popcount v % 2) ∧
    13 ≤ 12 + popcount v + (1 - popcount v % 2) ∧ 12 + popcount v + (1 - popcount v % 2) ≤ 19 := by
  decide

/-- Settles O28: a frame has 18 calls, and its flashes are counted bit by bit. -/
theorem frameFlashCount : Obligations.FrameFlashCount := by
  intro m v s t h
  have hsent : t.txTrace.drop s.txTrace.length = frameTrace s.config m (v.setWidth 7) := by
    obtain ⟨-, h⟩ := withMask_next h
    obtain ⟨-, h⟩ := withPhy_next h
    cases h
    exact List.drop_left
  obtain ⟨hcount, hlow, hhigh⟩ := flashes_frameBits (v.setWidth 7)
  simp only [hsent, flashes_frameTrace, hcount]
  exact ⟨rfl, trivial, hlow, hhigh⟩

end Sys2Proof.Machine

namespace Sys2Proof.Machine

/-! ### A packet through the carrier (42 R159, 30 R101) -/

theorem packetTx_faceOnly {s : State} (h : s.config.carrier = .faceOnly) (m : Mask) (p : Packet) :
    packetTx m p s =
      if p.first.toNat < 128 then .ok (s.transmit (frameTrace s.config m (p.first.setWidth 7)))
      else .error (.faceValueTooWide p.first) := by
  rw [packetTx, packetFrames, h]
  by_cases hv : p.first.toNat < 128
  · simp only [if_pos hv, framesTrace_singleton]
  · simp only [if_neg hv]

/-- The state after a packet was handed to an uninterpreted carrier and its frames were sent. -/
def State.handedTo (s : State) (m : Mask) (p : Packet) : State :=
  { s with
    carrierTx := s.carrierTx.drop 1
    carrierLog := .handed m p :: s.carrierLog
    txTrace := s.txTrace ++ (s.framesAt 0 s.carrierLog m p).flatMap fun c =>
      frameTrace s.config (frameMask m c.part) c.value }

theorem packetTx_uninterpreted {s : State} (h : s.config.carrier = .uninterpreted) (m : Mask) (p : Packet) :
    packetTx m p s = .ok (s.handedTo m p) := by
  rw [packetTx, packetFrames, h, State.handedTo, State.framesAt_zero, ← Feed.advance_eq_drop]
  simp only [framesTrace, List.flatMap_map]
  rfl

theorem exec_txPacket {m : Mask} {b : Byte} {bs : List Byte} (hm : m ≠ 0) (hb : bs.length ≤ 17) (s : State) :
    exec (.txPacket m (b :: bs)) s = sent (packetTx m ⟨b, bs⟩ s) := by
  have hlen : bs.length + 1 ≤ Config.packetCapacity := Nat.succ_le_succ hb
  simp only [exec, execTxPacket, withMask_ne hm, withPacket, if_pos hlen]

theorem startPacket_of_error {m : Mask} {p : Packet} {s : State} {e : Refusal} (h : packetTx m p s = .error e)
    (after : Option SendRest) : startPacket m p after s = .refused e := by
  unfold packetTx at h
  rw [startPacket]
  split at h
  · cases h
  · cases h; simp only [*]

/-- A packet handed over sends its frames call by call, and comes to what the whole transmission leaves. -/
theorem run_startPacket {m : Mask} {p : Packet} {s t : State} (h : packetTx m p s = .ok t) (hm : m ≠ 0)
    (after : Option SendRest) (hrun : Runnable s) (ha : s.agenda = []) :
    ∃ k u, startPacket m p after s = .next u ∧ Host.Core.run core k u = .next (sendingDone after t) := by
  obtain ⟨frs, u, hfrs, rfl⟩ := packetTx_ok h
  obtain ⟨hu, -⟩ := packetFrames_frame hm hfrs
  have hcfg : u.config = s.config := by rw [hu]
  refine ⟨(framesTrace u.config frs).length, sendingAt (Transmission.start frs) after u, by rw [startPacket, hfrs], ?_⟩
  rw [← hcfg]
  exact run_frames frs after (by rw [hu]; exact hrun) (by rw [hu]; exact ha)

theorem decode_encode_txPacket {m : Mask} {b : Byte} {bs : List Byte} (hm : m ≠ 0) (hb : bs.length ≤ 17) :
    decode (encode (.txPacket m (b :: bs))) = .ok (.txPacket m (b :: bs)) :=
  decodeOfEncodeIsIdentity _ (by
    simp only [Instr.wellFormed, maskOk, packetLengthOk, Config.packetCapacity, List.length_cons, Bool.and_eq_true,
      bne_iff_ne, decide_eq_true_eq]
    exact ⟨hm, by omega, by omega⟩)

theorem start_txPacket {m : Mask} {b : Byte} {bs : List Byte} (hm : m ≠ 0) (hb : bs.length ≤ 17) (s : State) :
    start (.txPacket m (b :: bs)) s = startPacket m ⟨b, bs⟩ none s := by
  have hlen : bs.length + 1 ≤ Config.packetCapacity := Nat.succ_le_succ hb
  rw [start, withMask_ne hm, withPacket, if_pos hlen]

theorem run_txPacket_inParts {m : Mask} {b : Byte} {bs : List Byte} {s : State} (hm : m ≠ 0) (hb : bs.length ≤ 17)
    (hc : usable s.config) (hr : s.ready = true) (ha : s.agenda = []) :
    ∃ k, Host.Core.run core k { s with agenda := [.inParts (encode (.txPacket m (b :: bs)))] } =
      sent (packetTx m ⟨b, bs⟩ s) := by
  have hstep := step_inParts_alone hc hr ha (decode_encode_txPacket (b := b) hm hb) rfl
  rw [start_txPacket hm hb] at hstep
  cases htx : packetTx m ⟨b, bs⟩ s with
  | error e =>
    rw [startPacket_of_error htx] at hstep
    exact ⟨1, (run_one _).trans hstep⟩
  | ok t =>
    obtain ⟨k, u, hu, hrun⟩ := run_startPacket htx hm none (Runnable.of_ready hc hr) ha
    have hmain : t.mainAt = none := by rw [(packetTx_sends htx).frame]; exact (s.ready_iff.mp hr).2.1
    rw [hu] at hstep
    rw [sendingDone_none hmain] at hrun
    exact ⟨k + 1, run_step_then hstep hrun⟩

/-- Settles O29: what the carrier does with a packet, whole and in parts. -/
theorem txPacketGoesThroughTheCarrier : Obligations.TxPacketGoesThroughTheCarrier := by
  intro m b bs s hm hb
  refine ⟨fun hc hv => ?value, fun hc hv => ?wide, fun hc => ?frames, fun hc hr ha => ?parts⟩
  case value => rw [exec_txPacket hm hb, packetTx_faceOnly hc, if_pos hv, exec_txByte hm hv]; rfl
  case wide => rw [exec_txPacket hm hb, packetTx_faceOnly hc, if_neg (Nat.not_lt.mpr hv)]; rfl
  case frames => rw [exec_txPacket hm hb, packetTx_uninterpreted hc]; rfl
  case parts =>
    obtain ⟨k, hk⟩ := run_txPacket_inParts hm hb hc hr ha
    exact ⟨k, hk.trans (exec_txPacket hm hb s).symm⟩

/-! ### Transmissions and sample steps (42 R160, R161) -/

section Beside

variable (r : PerFace RxFace) (p : Feed Mask) (q : List Action) (m : Option MainPosition)

/-- A transmission does the same whatever the sampler's registers hold. -/
theorem exec_transmit_beside {i : Instr} (hi : transmitOp i = true) (s : State) :
    exec i (s.beside r p q m) = mapNext (·.beside r p q m) (exec i s) := by
  cases i with
  | txsSync k | txsZero k | txsOne k =>
    simp only [exec, execTxsSync, execTxsZero, execTxsOne, mapNext_withMask]; rfl
  | txByte k v => simp only [exec, execTxByte, mapNext_withMask, mapNext_withPhy]; rfl
  | txPacket k bytes => simp only [exec, execTxPacket, mapNext_withMask, mapNext_withPacket, packetTx_beside, sent_map]
  | sendStep => simp only [exec, execSendStep, sendFaces_beside, sent_map]
  | _ => cases hi

end Beside

theorem transmit_sends (es : List TxEvent) (s : State) : SendPath s (s.transmit es) :=
  ⟨rfl, ⟨es, rfl⟩, fun f => ⟨(s.fc.get f).sendTimer, rfl, .inl rfl⟩⟩

/-- A transmission writes what the send path may write. -/
theorem exec_transmit_sends {i : Instr} {s t : State} (hi : transmitOp i = true) (h : exec i s = .next t) :
    SendPath s t := by
  cases i with
  | txsSync m | txsZero m | txsOne m => obtain ⟨-, h⟩ := withMask_next h; cases h; exact transmit_sends _ s
  | txByte m v =>
    obtain ⟨-, h⟩ := withMask_next h
    obtain ⟨-, h⟩ := withPhy_next h
    cases h; exact transmit_sends _ s
  | txPacket m bytes =>
    obtain ⟨-, h⟩ := withMask_next h
    obtain ⟨p, rfl, -, hk⟩ := withPacket_next h
    exact packetTx_sends (sent_next hk)
  | sendStep => exact sendFaces_sends allFaces (sent_next h)
  | _ => cases hi

theorem exec_transmit_after_sampleAll {i : Instr} {s t : State} (hi : transmitOp i = true) (h : exec i s = .next t) :
    exec i (sampleAll s) = .next (sampleAll t) := by
  have hbeside : sampleAll s = s.beside (sampleAll s).rx s.samples.advance s.agenda s.mainAt := rfl
  have hf := (exec_transmit_sends hi h).frame
  rw [hbeside, exec_transmit_beside _ _ _ _ hi, h, hf]
  rfl

/-- What a transmission has left, none included. -/
def callsLeft (cfg : Config) (x : Option Transmission) : List TxEvent :=
  match x with
  | none => []
  | some x => x.left cfg

/-- A transmission of its own, at `x`, with `as` pending behind it. -/
def State.sendingBefore (s : State) (x : Option Transmission) (as : List Action) : State :=
  { s with agenda := as, mainAt := x.map fun x => .sending x none }

theorem sendingAt_none_eq (x : Option Transmission) (s : State) :
    sendingAt x none s = s.sendingBefore x s.agenda := by
  cases x <;> rfl

theorem sampleTimes_succ (n : Nat) (s : State) : sampleTimes (n + 1) s = sampleTimes n (sampleAll s) := rfl

/-- A sample step at the head of the agenda runs, whether a transmission is under way or not. -/
theorem step_sample_sendingBefore {s : State} (hrun : Runnable s) (x : Option Transmission) (as : List Action) :
    step (s.sendingBefore x (.run (encode .sampleStep) :: as)) = .next ((sampleAll s).sendingBefore x as) := by
  obtain ⟨hc, hs, hh⟩ := hrun
  cases x with
  | none =>
    have hr : (s.sendingBefore none (.run (encode .sampleStep) :: as)).ready = true :=
      (State.ready_iff _).mpr ⟨hh, rfl, hs⟩
    rw [step_of_pending (s := s.sendingBefore none _) hc hr rfl, runAction, runCode_of_decode decode_encode_sampleStep rfl]
    rfl
  | some x =>
    rw [step_of_mainAt (s := s.sendingBefore (some x) _) hc hs hh rfl]
    rfl

/-- A leave to proceed lets the transmission make its next call. -/
theorem step_proceed_sendingBefore {s : State} (hrun : Runnable s) (x : Transmission) (as : List Action) :
    step (s.sendingBefore (some x) (.proceed :: as)) = .next ((s.transmit (x.call s.config)).sendingBefore x.next as) := by
  obtain ⟨hc, hs, hh⟩ := hrun
  rw [step_of_mainAt (s := s.sendingBefore (some x) _) hc hs hh rfl, whileUnderWay_proceed (rest := as) rfl, mainPart,
    sendingAt_none_eq]
  rfl

/-- Sample steps and leaves to proceed, in any order: the transmission makes its calls, the samples are taken. -/
theorem run_calls_and_samples : ∀ (as : List Action) (x : Option Transmission) (s : State), Runnable s →
    (∀ a ∈ as, a = .proceed ∨ a = .run (encode .sampleStep)) → (∀ y ∈ x, y.byte < y.frames.length) →
    as.count .proceed = (callsLeft s.config x).length →
    Host.Core.run core as.length (s.sendingBefore x as) =
      .next (sampleTimes (as.count (.run (encode .sampleStep)))
        ((s.transmit (callsLeft s.config x)).sendingBefore none []))
  | [], x, s, hrun, _, hx, hcount => by
    have hnil : callsLeft s.config x = [] := List.eq_nil_of_length_eq_zero hcount.symm
    rw [hnil]
    cases x with
    | none => rw [State.transmit, List.append_nil]; rfl
    | some x =>
      obtain ⟨e, -, ⟨y, -, -, hl⟩ | ⟨-, hl⟩⟩ := Transmission.left_cases s.config (hx x rfl) <;>
        · rw [callsLeft, hl] at hnil; cases hnil
  | a :: as, x, s, hrun, has, hx, hcount => by
    obtain ⟨hhead, htail⟩ := List.forall_mem_cons.mp has
    obtain rfl | rfl := hhead
    · rw [List.count_cons_self] at hcount
      rw [List.count_cons_of_ne (by exact Action.noConfusion)]
      cases x with
      | none => cases hcount
      | some x =>
        obtain ⟨e, hcall, hrest⟩ := Transmission.left_cases s.config (hx x rfl)
        have hl : x.left s.config = e :: callsLeft s.config x.next ∧ ∀ y ∈ x.next, y.byte < y.frames.length := by
          obtain ⟨y, hy, hyb, hl⟩ | ⟨hnone, hl⟩ := hrest
          · rw [hy]; exact ⟨hl, fun z hz => by cases hz; exact hyb⟩
          · rw [hnone]; exact ⟨hl, fun z hz => by cases hz⟩
        have hstep := step_proceed_sendingBefore hrun x as
        rw [hcall] at hstep
        rw [callsLeft, hl.1, List.length_cons] at hcount
        have ih := run_calls_and_samples as x.next (s.transmit [e]) hrun htail hl.2 (Nat.succ_inj.mp hcount)
        have happend : (s.transmit [e]).transmit (callsLeft s.config x.next) = s.transmit (x.left s.config) := by
          rw [hl.1, State.transmit, State.transmit, State.transmit, List.append_assoc]; rfl
        rw [State.transmit_config, happend] at ih
        exact run_step_then hstep ih
    · rw [List.count_cons_of_ne (by exact Action.noConfusion)] at hcount
      rw [List.count_cons_self, sampleTimes_succ]
      exact run_step_then (step_sample_sendingBefore hrun x as)
        (run_calls_and_samples as x (sampleAll s) hrun htail hx hcount)

theorem execAll_samples : ∀ (n : Nat) (s : State),
    execAll (List.replicate n .sampleStep) s = .next (sampleTimes n s)
  | 0, _ => rfl
  | n + 1, s => by
    rw [List.replicate_succ, execAll_cons_of_next (exec_sampleStep s), execAll_samples n, sampleTimes_succ]

/-- Settles O30: a transmission does not see what a sample step writes; between its calls sample steps fall as they may. -/
theorem transmissionCommutesWithSampling : Obligations.TransmissionCommutesWithSampling := by
  refine ⟨fun i s t s' hi h hs' => ?commute, fun m v s as hm hv hc hr ha has hcount => ?interleave⟩
  case commute =>
    cases hs'
    exact ⟨sampleAll t, exec_sampleStep t, exec_transmit_after_sampleAll hi h⟩
  case interleave =>
    have hstep := step_inParts (rest := as) hc hr (decode_encode_txByte hm hv) rfl
    rw [start_txByte hm hv, sendingAt_none_eq] at hstep
    have hcalls : callsLeft s.config (Transmission.start [⟨m, v.setWidth 7⟩]) = frameTrace s.config m (v.setWidth 7) :=
      framesTrace_singleton s.config m (v.setWidth 7)
    have hrun := run_calls_and_samples as (Transmission.start [⟨m, v.setWidth 7⟩]) s (Runnable.of_ready hc hr) has
      (fun y hy => by cases hy; exact Nat.one_pos) (by rw [hcalls, hcount]; rfl)
    have hend : (s.transmit (frameTrace s.config m (v.setWidth 7))).sendingBefore none [] =
        s.transmit (frameTrace s.config m (v.setWidth 7)) := by
      rw [State.sendingBefore, ← ha]
      exact congrArg (fun p => { s.transmit (frameTrace s.config m (v.setWidth 7)) with mainAt := p })
        (s.ready_iff.mp hr).2.1.symm
    rw [hcalls, hend] at hrun
    rw [execAll_cons_of_next (exec_txByte hm hv s), execAll_samples, Nat.add_comm]
    exact run_step_then hstep hrun

end Sys2Proof.Machine

namespace Sys2Proof.Machine

/-! ### The send step in closed form (43 R186 to R188) -/

theorem Feed.nth_drop {α : Type} (free : Nat → α) (p : Feed α) (n k : Nat) :
    (p.drop n).nth free k = p.nth free (n + k) := by
  simp [Feed.nth, Feed.drop, Nat.add_assoc]

theorem Feed.drop_drop {α : Type} (p : Feed α) (m n : Nat) : (p.drop m).drop n = p.drop (m + n) := by
  simp [Feed.drop, Nat.add_assoc]

/-- Is a face due at the clock reading that the send step will make for it (43 R186)? -/
def dueIn (s : State) (f : Face) : Bool := elapsed s.config (s.fc.get f).sendTimer (s.clockAt f.val)

/-- A face channel rescheduled past the clock reading made for it (43 R188). -/
def rescheduled (s : State) (f : Face) : FaceChannel :=
  { s.fc.get f with sendTimer := timerSet s.config (s.clockAt f.val) s.config.probeIntervalMs }

/-- The face channels after the send step on the faces `fs`. -/
def rescheduledOn (s : State) (fs : List Face) : PerFace FaceChannel :=
  PerFace.ofFn fun f => if f ∈ fs ∧ dueIn s f = true then rescheduled s f else s.fc.get f

theorem rescheduledOn_append_of_due {s : State} {f : Face} (hdue : dueIn s f = true) (fs : List Face) :
    (rescheduledOn s fs).set f (rescheduled s f) = rescheduledOn s (fs ++ [f]) := by
  apply PerFace.ext_get
  intro g
  by_cases hg : g = f
  · subst hg; simp [rescheduledOn, hdue]
  · simp [rescheduledOn, hg, PerFace.get_set_of_ne _ _ hg]

theorem rescheduledOn_append_of_not_due {s : State} {f : Face} (hdue : dueIn s f = false) (fs : List Face) :
    rescheduledOn s (fs ++ [f]) = rescheduledOn s fs := by
  apply PerFace.ext_get
  intro g
  by_cases hg : g = f
  · subst hg; simp [rescheduledOn, hdue]
  · simp [rescheduledOn, hg]

theorem rescheduledOn_allFaces (s : State) :
    rescheduledOn s allFaces = PerFace.ofFn fun f => if dueIn s f then rescheduled s f else s.fc.get f := by
  simp [rescheduledOn, mem_allFaces]

theorem rescheduledOn_nil (s : State) : rescheduledOn s [] = s.fc := by
  apply PerFace.ext_get
  simp [rescheduledOn]

/-- The state after the send step on the faces `fs`, when it appended these pulses and left the carrier's own state so. -/
def State.sentOn (s : State) (fs : List Face) (es : List TxEvent) (c : Feed CarrierSend) (log : List CarrierEvent) :
    State :=
  { s with
    clock := s.clock.drop fs.length
    fc := rescheduledOn s fs
    txTrace := s.txTrace ++ es, carrierTx := c, carrierLog := log }

/-- The faces in order: a face has its number of faces before it, none of them itself. -/
theorem allFaces_split {fs rest : List Face} {f : Face} (h : allFaces = fs ++ f :: rest) :
    f.val = fs.length ∧ f ∉ fs := by
  have hnodup : (fs ++ f :: rest).Nodup := by rw [← h]; decide
  have hget : ∀ i, (hi : i < allFaces.length) → allFaces[i].val = i := by decide
  refine ⟨?_, fun hf => ?_⟩
  · have hlen : fs.length < allFaces.length := by rw [h]; simp
    have := hget fs.length hlen
    simpa [h] using this
  · exact (List.disjoint_of_nodup_append hnodup hf) (List.mem_cons_self ..)

section OneFace

variable {s : State} {fs rest : List Face} {f : Face} {es : List TxEvent} {c : Feed CarrierSend} {log : List CarrierEvent}

theorem sentOn_now (h : allFaces = fs ++ f :: rest) : (s.sentOn fs es c log).now = s.clockAt f.val := by
  rw [State.now_eq_clockAt, State.clockAt, State.clockAt, (allFaces_split h).1]
  show (s.clock.drop fs.length).nth _ 0 % _ = _
  rw [Feed.nth_drop]
  rfl

theorem sentOn_fc (h : allFaces = fs ++ f :: rest) : (s.sentOn fs es c log).fc.get f = s.fc.get f := by
  simp [State.sentOn, rescheduledOn, (allFaces_split h).2]

/-- The send step on the next face depends on what the state held before it. -/
theorem sendFace_sentOn (h : allFaces = fs ++ f :: rest) :
    sendFace f (s.sentOn fs es c log) =
      if dueIn s f then
        (packetTx (faceMask f) (outPacket f s) (s.sentOn fs es c log).afterNow).map (reschedule f (s.clockAt f.val))
      else .ok (s.sentOn fs es c log).afterNow := by
  have hpacket : outPacket f (s.sentOn fs es c log) = outPacket f s := by
    rw [outPacket, outPacket, sentOn_fc h]; rfl
  rw [sendFace, sentOn_now h, sentOn_fc h, hpacket]
  show (if dueIn s f then _ else _) = _
  split
  · cases packetTx (faceMask f) (outPacket f s) (s.sentOn fs es c log).afterNow <;> rfl
  · rfl

theorem sentOn_clock_drop : (s.clock.drop fs.length).drop 1 = s.clock.drop (fs ++ [f]).length := by
  rw [Feed.drop_drop, List.length_append]; rfl

theorem sendFace_sentOn_of_not_due (h : allFaces = fs ++ f :: rest) (hdue : dueIn s f = false) :
    sendFace f (s.sentOn fs es c log) = .ok (s.sentOn (fs ++ [f]) es c log) := by
  rw [sendFace_sentOn h, hdue, if_neg Bool.false_ne_true, State.afterNow_eq, State.sentOn, State.sentOn,
    rescheduledOn_append_of_not_due hdue, ← sentOn_clock_drop]

/-- After a hand-over the face is rescheduled. -/
theorem reschedule_sentOn (hdue : dueIn s f = true) (c' : Feed CarrierSend) (log' : List CarrierEvent)
    (es' : List TxEvent) :
    reschedule f (s.clockAt f.val)
        { (s.sentOn fs es c log).afterNow with carrierTx := c', carrierLog := log', txTrace := s.txTrace ++ es ++ es' } =
      s.sentOn (fs ++ [f]) (es ++ es') c' log' := by
  have hfc : (rescheduledOn s fs).set f
      { (rescheduledOn s fs).get f with
        sendTimer := timerSet s.config (s.clockAt f.val) s.config.probeIntervalMs } =
      rescheduledOn s (fs ++ [f]) := by
    rw [← rescheduledOn_append_of_due hdue]
    congr 1
    simp only [rescheduledOn, PerFace.get_ofFn, rescheduled]
    split <;> rfl
  rw [State.sentOn, State.sentOn, ← sentOn_clock_drop, ← hfc, State.afterNow_eq, ← List.append_assoc]
  rfl

theorem sendFace_sentOn_faceOnly (hc : s.config.carrier = .faceOnly) (h : allFaces = fs ++ f :: rest)
    (hdue : dueIn s f = true) :
    sendFace f (s.sentOn fs es c log) =
      if (s.fc.get f).outValue.toNat < 128 then
        .ok (s.sentOn (fs ++ [f]) (es ++ frameTrace s.config (1 <<< f.val) ((s.fc.get f).outValue.setWidth 7)) c log)
      else .error (.faceValueTooWide (s.fc.get f).outValue) := by
  rw [sendFace_sentOn h, if_pos hdue, packetTx_faceOnly (s := (s.sentOn fs es c log).afterNow) hc,
    ← reschedule_sentOn hdue]
  show Except.map _ (if (s.fc.get f).outValue.toNat < 128 then _ else _) = _
  split <;> rfl

theorem frameMask_faceMask : ∀ (f : Face) (part : Mask), frameMask (faceMask f) part = 1 <<< f.val := by
  decide

/-- The carrier's choices do not depend on what was sent. -/
theorem framesAt_of_drop {s u : State} {n : Nat} (hu : u.carrierTx = s.carrierTx.drop n) (log : List CarrierEvent)
    (m : Mask) (p : Packet) : u.framesAt 0 log m p = s.framesAt n log m p := by
  rw [State.framesAt, State.framesAt, hu]
  simp only [Feed.drop, List.getElem?_drop, Nat.add_zero]

/-- The pulses of the frames that an uninterpreted carrier sends for the packet of face `f`, the `n`-th it was handed. -/
def carrierPulses (s : State) (f : Face) (n : Nat) (log : List CarrierEvent) : List TxEvent :=
  (s.framesAt n log (1 <<< f.val) (outPacket f s)).flatMap fun c => frameTrace s.config (1 <<< f.val) c.value

theorem sendFace_sentOn_uninterpreted (hc : s.config.carrier = .uninterpreted) (h : allFaces = fs ++ f :: rest)
    (hdue : dueIn s f = true) (n : Nat) :
    sendFace f (s.sentOn fs es (s.carrierTx.drop n) log) =
      .ok (s.sentOn (fs ++ [f]) (es ++ carrierPulses s f n log) (s.carrierTx.drop (n + 1))
        (.handed (1 <<< f.val) (outPacket f s) :: log)) := by
  rw [sendFace_sentOn h, if_pos hdue, packetTx_uninterpreted (s := (s.sentOn fs es _ log).afterNow) hc,
    ← reschedule_sentOn hdue (c := s.carrierTx.drop n) (log := log), State.handedTo, ← Feed.drop_drop, carrierPulses]
  simp only [frameMask_faceMask, Except.map,
    framesAt_of_drop (u := (s.sentOn fs es (s.carrierTx.drop n) log).afterNow) (n := n) rfl]
  rfl

end OneFace

theorem State.sentOn_nil (s : State) : s.sentOn [] [] s.carrierTx s.carrierLog = s := by
  rw [State.sentOn, rescheduledOn_nil, List.append_nil]
  rfl

/-! ### The reference carrier -/

/-- The pulses of the due faces' values (30 R101). -/
def valuePulses (s : State) (fs : List Face) : List TxEvent :=
  fs.flatMap fun f =>
    if dueIn s f then frameTrace s.config (1 <<< f.val) ((s.fc.get f).outValue.setWidth 7) else []

theorem valuePulses_append (s : State) (fs : List Face) (f : Face) :
    valuePulses s (fs ++ [f]) = valuePulses s fs ++
      if dueIn s f then frameTrace s.config (1 <<< f.val) ((s.fc.get f).outValue.setWidth 7) else [] := by
  rw [valuePulses, List.flatMap_append, List.flatMap_singleton]
  rfl

theorem sendFaces_faceOnly {s : State} (hc : s.config.carrier = .faceOnly)
    (hnarrow : ∀ f, dueIn s f = true → (s.fc.get f).outValue.toNat < 128) :
    ∀ (rest fs : List Face), allFaces = fs ++ rest →
      sendFaces rest (s.sentOn fs (valuePulses s fs) s.carrierTx s.carrierLog) =
        .ok (s.sentOn allFaces (valuePulses s allFaces) s.carrierTx s.carrierLog)
  | [], fs, h => by rw [List.append_nil] at h; rw [sendFaces, h]
  | f :: rest, fs, h => by
    have hnext : sendFace f (s.sentOn fs (valuePulses s fs) s.carrierTx s.carrierLog) =
        .ok (s.sentOn (fs ++ [f]) (valuePulses s (fs ++ [f])) s.carrierTx s.carrierLog) := by
      rw [valuePulses_append]
      cases hdue : dueIn s f with
      | true => rw [sendFace_sentOn_faceOnly hc h hdue, if_pos (hnarrow f hdue), if_pos rfl]
      | false => rw [sendFace_sentOn_of_not_due h hdue, if_neg Bool.false_ne_true, List.append_nil]
    rw [sendFaces, hnext]
    exact sendFaces_faceOnly hc hnarrow rest (fs ++ [f]) (by rw [h, List.append_assoc]; rfl)

/-- A due face with a wide value among those to come stops the send step, at that face or at one before it. -/
theorem sendFaces_refused {s : State} (hc : s.config.carrier = .faceOnly) {f : Face} (hdue : dueIn s f = true)
    (hwide : 128 ≤ (s.fc.get f).outValue.toNat) : ∀ (rest fs : List Face) (es : List TxEvent), allFaces = fs ++ rest →
      f ∈ rest → ∃ v : Byte, 128 ≤ v.toNat ∧
        sendFaces rest (s.sentOn fs es s.carrierTx s.carrierLog) = .error (.faceValueTooWide v)
  | [], _, _, _, hf => by cases hf
  | g :: rest, fs, es, h, hf => by
    have hsplit : allFaces = (fs ++ [g]) ++ rest := by rw [h, List.append_assoc]; rfl
    cases hg : dueIn s g with
    | true =>
      by_cases hv : (s.fc.get g).outValue.toNat < 128
      · have hne : f ≠ g := by rintro rfl; omega
        rw [sendFaces, sendFace_sentOn_faceOnly hc h hg, if_pos hv]
        exact sendFaces_refused hc hdue hwide rest _ _ hsplit (List.mem_of_ne_of_mem hne hf)
      · refine ⟨(s.fc.get g).outValue, Nat.not_lt.mp hv, ?_⟩
        rw [sendFaces, sendFace_sentOn_faceOnly hc h hg, if_neg hv]
    | false =>
      have hne : f ≠ g := by rintro rfl; rw [hdue] at hg; cases hg
      rw [sendFaces, sendFace_sentOn_of_not_due h hg]
      exact sendFaces_refused hc hdue hwide rest _ _ hsplit (List.mem_of_ne_of_mem hne hf)

theorem exec_sendStep (s : State) : exec .sendStep s = sent (sendFaces allFaces s) := rfl

/-- Settles O40: the faces are visited in order, and a wide value of a due face is refused. -/
theorem sendStepRefusesAWideFaceValue : Obligations.SendStepRefusesAWideFaceValue := by
  intro s f hc hdue hwide
  obtain ⟨v, hv, hrefused⟩ := sendFaces_refused hc hdue hwide allFaces [] [] rfl (mem_allFaces f)
  rw [State.sentOn_nil] at hrefused
  exact ⟨v, hv, by rw [exec_sendStep, hrefused]; rfl⟩

/-! ### Any other carrier -/

/-- The pulses of the packets of the faces `due`, handed over in that order. -/
def packetPulses (s : State) (due : List Face) : List TxEvent :=
  due.zipIdx.flatMap fun p => carrierPulses s p.1 p.2 (s.handedOver (due.take p.2) ++ s.carrierLog)

theorem packetPulses_append (s : State) (due : List Face) (f : Face) :
    packetPulses s (due ++ [f]) =
      packetPulses s due ++ carrierPulses s f due.length (s.handedOver due ++ s.carrierLog) := by
  have hbefore : ∀ p ∈ due.zipIdx, (due ++ [f]).take p.2 = due.take p.2 := fun p hp =>
    List.take_append_of_le_length (Nat.le_of_lt (by simpa using (List.mem_zipIdx hp).2.1))
  rw [packetPulses, packetPulses, List.zipIdx_append, List.flatMap_append]
  congr 1
  · exact List.flatMap_congr fun p hp => by rw [hbefore p hp]
  · simp

theorem handedOver_append (s : State) (due : List Face) (f : Face) :
    s.handedOver (due ++ [f]) = .handed (1 <<< f.val) (outPacket f s) :: s.handedOver due := by
  simp [State.handedOver]

/-- The state after an uninterpreted carrier's send step on the faces `fs`. -/
def State.packetsSentOn (s : State) (fs : List Face) : State :=
  s.sentOn fs (packetPulses s (fs.filter (dueIn s))) (s.carrierTx.drop (fs.filter (dueIn s)).length)
    (s.handedOver (fs.filter (dueIn s)) ++ s.carrierLog)

theorem sendFaces_uninterpreted {s : State} (hc : s.config.carrier = .uninterpreted) :
    ∀ (rest fs : List Face), allFaces = fs ++ rest →
      sendFaces rest (s.packetsSentOn fs) = .ok (s.packetsSentOn allFaces)
  | [], fs, h => by rw [List.append_nil] at h; rw [sendFaces, h]
  | f :: rest, fs, h => by
    have hnext : sendFace f (s.packetsSentOn fs) = .ok (s.packetsSentOn (fs ++ [f])) := by
      rw [State.packetsSentOn, State.packetsSentOn, List.filter_append]
      cases hdue : dueIn s f with
      | true =>
        rw [List.filter_cons_of_pos hdue, List.filter_nil, sendFace_sentOn_uninterpreted hc h hdue,
          packetPulses_append, handedOver_append, List.length_append]
        rfl
      | false =>
        rw [List.filter_cons_of_neg (by rw [hdue]; exact Bool.false_ne_true), List.filter_nil, List.append_nil,
          sendFace_sentOn_of_not_due h hdue]
    rw [sendFaces, hnext]
    exact sendFaces_uninterpreted hc rest (fs ++ [f]) (by rw [h, List.append_assoc]; rfl)

theorem packetsSentOn_nil (s : State) : s.packetsSentOn [] = s := s.sentOn_nil

/-! ### The send step in parts (42 R158; log 1) -/

/-- A state with the main loop at another place. -/
def State.at (s : State) (m : Option MainPosition) : State := { s with mainAt := m }

theorem sendFaces_at (m : Option MainPosition) (fs : List Face) (s : State) :
    sendFaces fs (s.at m) = (sendFaces fs s).map (·.at m) := by
  have h := sendFaces_beside s.rx s.samples s.agenda m fs s
  rw [show s.at m = s.beside s.rx s.samples s.agenda m from rfl, h]
  cases ht : sendFaces fs s with
  | error e => rfl
  | ok t =>
    have hf := (sendFaces_sends fs ht).frame
    simp only [Except.map]
    rw [hf]; rfl

theorem SendPath.runnable {s t : State} (h : SendPath s t) (hrun : Runnable s) (ha : s.agenda = []) :
    Runnable t ∧ t.agenda = [] := by
  rw [h.frame]; exact ⟨hrun, ha⟩

theorem sendFace_of_due {s t : State} {f : Face} (hdue : elapsed s.config (s.fc.get f).sendTimer s.now = true)
    (htx : packetTx (faceMask f) (outPacket f s) s.afterNow = .ok t) :
    sendFace f s = .ok (reschedule f s.now t) := by
  rw [sendFace, if_pos hdue, htx]

theorem sendFaces_cons_of_ok {s t : State} {f : Face} (h : sendFace f s = .ok t) (fs : List Face) :
    sendFaces (f :: fs) s = sendFaces fs t := by
  rw [sendFaces, h]

theorem sendFaces_cons_of_error {s : State} {f : Face} {e : Refusal} (h : sendFace f s = .error e) (fs : List Face) :
    sendFaces (f :: fs) s = .error e := by
  rw [sendFaces, h]

/-- A send step in parts, at the faces left, comes to what the whole one on those faces leaves. -/
theorem run_sendStepAt : ∀ (fs : List Face) (s : State), Runnable s → s.agenda = [] → s.mainAt = sendStepAt fs →
    ∃ k, Host.Core.run core k s = sent ((sendFaces fs s).map (·.at none))
  | [], s, _, _, hm => by
    have hnone : s.at none = s := by rw [State.at, ← show s.mainAt = none from hm]
    refine ⟨0, ?_⟩
    rw [sendFaces, Except.map, hnone]
    rfl
  | f :: fs, s, hrun, ha, hm => by
    have hgo : ∀ t, sendFace f s = .ok t → (∃ k, Host.Core.run core k s = .next (t.at (sendStepAt fs))) →
        ∃ k, Host.Core.run core k s = sent ((sendFaces (f :: fs) s).map (·.at none)) := by
      rintro t ht ⟨k, hk⟩
      obtain ⟨hrun', ha'⟩ := (sendFace_sends ht).runnable hrun ha
      obtain ⟨j, hj⟩ := run_sendStepAt fs (t.at (sendStepAt fs)) hrun' ha' rfl
      have hat : (sendFaces fs (t.at (sendStepAt fs))).map (·.at none) = (sendFaces fs t).map (·.at none) := by
        rw [sendFaces_at]
        cases sendFaces fs t <;> rfl
      rw [sendFaces_cons_of_ok ht, ← hat]
      exact ⟨k + j, run_then hk hj⟩
    have hstep : step s = sendVisit (f :: fs) s := by
      obtain ⟨hc, hs, hh⟩ := hrun
      rw [step_of_mainAt hc hs hh hm, whileUnderWay_nil ha, mainPart]
    rw [sendVisit_cons] at hstep
    cases hdue : elapsed s.config (s.fc.get f).sendTimer s.now with
    | false =>
      rw [hdue, if_neg Bool.false_ne_true] at hstep
      refine hgo s.afterNow ?_ ⟨1, (run_one s).trans hstep⟩
      rw [sendFace, hdue, if_neg Bool.false_ne_true]
    | true =>
      rw [if_pos hdue] at hstep
      cases htx : packetTx (faceMask f) (outPacket f s) s.afterNow with
      | error e =>
        have herror : sendFace f s = .error e := by rw [sendFace, if_pos hdue, htx]
        rw [startPacket_of_error htx] at hstep
        rw [sendFaces_cons_of_error herror]
        exact ⟨1, (run_one s).trans hstep⟩
      | ok t =>
        obtain ⟨k, u, hu, hk⟩ := run_startPacket htx (faceMask_ne_zero f) (some ⟨f, s.now, fs⟩) hrun ha
        rw [hu] at hstep
        exact hgo _ (sendFace_of_due hdue htx) ⟨k + 1, run_step_then hstep hk⟩

theorem run_sendStep_inParts {s : State} (hc : usable s.config) (hr : s.ready = true) (ha : s.agenda = []) :
    ∃ k, Host.Core.run core k { s with agenda := [.inParts (encode .sendStep)] } = exec .sendStep s := by
  have hstep : step { s with agenda := [.inParts (encode .sendStep)] } = .next (s.at (sendStepAt allFaces)) :=
    step_inParts_alone (i := .sendStep) hc hr ha rfl rfl
  have hrun : Runnable s := Runnable.of_ready hc hr
  obtain ⟨k, hk⟩ := run_sendStepAt allFaces (s.at (sendStepAt allFaces)) hrun ha rfl
  have hend : (sendFaces allFaces (s.at (sendStepAt allFaces))).map (·.at none) = sendFaces allFaces s := by
    rw [sendFaces_at]
    cases ht : sendFaces allFaces s with
    | error e => rfl
    | ok t =>
      have hmain : t.mainAt = none := by
        rw [(sendFaces_sends allFaces ht).frame]; exact (s.ready_iff.mp hr).2.1
      rw [Except.map, Except.map, State.at, State.at, ← hmain]
  rw [hend] at hk
  exact ⟨k + 1, run_step_then hstep hk⟩

/-- Settles O38: the due faces' frames in order, each face rescheduled past its own reading. -/
theorem sendStepUnderTheReferenceCarrier : Obligations.SendStepUnderTheReferenceCarrier := by
  intro s hc hnarrow
  refine ⟨fun hu hr ha => run_sendStep_inParts hu hr ha, ?_⟩
  have h := sendFaces_faceOnly hc hnarrow allFaces [] rfl
  rw [show valuePulses s [] = [] from rfl, State.sentOn_nil] at h
  rw [exec_sendStep, h, State.sentOn, rescheduledOn_allFaces]
  rfl

/-- Settles O39: the due faces' packets in order, each with the frames the carrier chooses. -/
theorem sendStepUnderAnyCarrier : Obligations.SendStepUnderAnyCarrier := by
  intro s hc
  refine ⟨fun hu hr ha => run_sendStep_inParts hu hr ha, ?_⟩
  have h := sendFaces_uninterpreted hc allFaces [] rfl
  rw [packetsSentOn_nil] at h
  rw [exec_sendStep, h, State.packetsSentOn, State.sentOn, rescheduledOn_allFaces]
  rfl

end Sys2Proof.Machine

namespace Sys2Proof.Machine

/-! ### The receive step in parts (43 R180; logs 1, 4) -/

theorem exec_receiveStep (s : State) : exec .receiveStep s = .next (receiveFaces allFaces s) := rfl

/-- One visit of the receive step, with the part it leaves: one or two steps, and what the whole treatment of the face
leaves. -/
theorem run_receiveVisit {s : State} {f : Face} {fs : List Face} (hrun : Runnable s) (ha : s.agenda = [])
    (hm : s.mainAt = receiveStepAt (f :: fs)) :
    ∃ k, 1 ≤ k ∧ k ≤ 2 ∧ Host.Core.run core k s = .next ((receiveFace f s).placed [] (receiveStepAt fs)) := by
  obtain ⟨hc, hs, hh⟩ := hrun
  have hstep : step s = .next (receiveVisit (f :: fs) s) := by
    rw [step_of_mainAt hc hs hh hm, whileUnderWay_nil ha, mainPart]
  obtain ⟨-, hv⟩ | ⟨r, -, hexec, hv⟩ := receiveVisit_cons f fs s
  · have hagenda : (receiveFace f s).agenda = [] := by rw [(receiveFace_received f s).frame]; exact ha
    rw [hv] at hstep
    refine ⟨1, le_rfl, by omega, (run_one s).trans (hstep.trans ?_)⟩
    rw [State.placed, ← hagenda]
    rfl
  · let v : State := { (visitFace f s).1 with mainAt := some (.treating r fs) }
    have hframe := (visitFace_received f s).frame
    have hvc : usable v.config := by show usable (visitFace f s).1.config; rw [hframe]; exact hc
    have hvs : v.samplerAt = none := by show (visitFace f s).1.samplerAt = none; rw [hframe]; exact hs
    have hvh : v.hold = none := by show (visitFace f s).1.hold = none; rw [hframe]; exact hh
    have hva : (visitFace f s).1.agenda = [] := by rw [hframe]; exact ha
    have hplaced : { v with mainAt := receiveStepAt fs } = (visitFace f s).1.placed [] (receiveStepAt fs) := by
      rw [State.placed, ← hva]
    have htreat : step v = .next ((receiveFace f s).placed [] (receiveStepAt fs)) := by
      rw [step_of_mainAt hvc hvs hvh rfl, whileUnderWay_nil (s := v) hva, mainPart, hplaced, receivePart_placed, hexec]
      rfl
    rw [hv] at hstep
    exact ⟨2, by omega, le_rfl, run_step_then hstep ((run_one v).trans htreat)⟩

/-- The receive step in parts, at the faces left: one or two steps a face. -/
theorem run_receiveStepAt : ∀ (fs : List Face) (s : State), Runnable s → s.agenda = [] →
    s.mainAt = receiveStepAt fs → ∃ k, fs.length ≤ k ∧ k ≤ 2 * fs.length ∧
      Host.Core.run core k s = .next ((receiveFaces fs s).placed [] none)
  | [], s, _, ha, hm => by
    have hnone : s.mainAt = none := hm
    have hs : s.placed [] none = s := by rw [State.placed, ← ha, ← hnone]
    refine ⟨0, le_rfl, le_rfl, ?_⟩
    rw [receiveFaces, hs]
    rfl
  | f :: fs, s, hrun, ha, hm => by
    obtain ⟨k, hk1, hk2, hk⟩ := run_receiveVisit hrun ha hm
    have hrun' : Runnable ((receiveFace f s).placed [] (receiveStepAt fs)) := by
      rw [(receiveFace_received f s).frame]; exact hrun
    obtain ⟨j, hj1, hj2, hj⟩ := run_receiveStepAt fs _ hrun' rfl rfl
    rw [receiveFaces_placed] at hj
    rw [List.length_cons]
    exact ⟨k + j, by omega, by omega, run_then hk hj⟩

/-- Settles O32: the faces one after the other, and in parts one or two steps for each. -/
theorem receiveStepVisitsTheFacesInOrder : Obligations.ReceiveStepVisitsTheFacesInOrder := by
  intro s
  refine ⟨rfl, rfl, fun f fs => rfl, fun hc hr ha => ?_⟩
  have hstep : step { s with agenda := [.inParts (encode .receiveStep)] } =
      .next (s.placed [] (receiveStepAt allFaces)) := by
    refine (step_inParts_alone (i := .receiveStep) hc hr ha rfl rfl).trans ?_
    rw [State.placed, ← ha]; rfl
  have hrun : Runnable s := Runnable.of_ready hc hr
  obtain ⟨k, hk1, hk2, hk⟩ := run_receiveStepAt allFaces (s.placed [] (receiveStepAt allFaces)) hrun rfl rfl
  have hend : ((receiveFaces allFaces s).placed [] (receiveStepAt allFaces)).placed [] none = receiveFaces allFaces s := by
    have hframe := (receiveFaces_received allFaces s).frame
    have ha' : (receiveFaces allFaces s).agenda = [] := by rw [hframe]; exact ha
    have hm' : (receiveFaces allFaces s).mainAt = none := by rw [hframe]; exact (s.ready_iff.mp hr).2.1
    rw [State.placed, State.placed, ← ha', ← hm']
  rw [receiveFaces_placed, hend] at hk
  have hlen : allFaces.length = 6 := rfl
  exact ⟨k + 1, by omega, by omega, run_step_then hstep hk⟩

/-! ### What the receive step leaves alone (60 R242) -/

theorem receiveFace_clock (f : Face) (s : State) : (receiveFace f s).clock = s.clock.drop 1 := by
  rw [receiveFace, handleReceived_frame, packetRx_frame, State.afterNow_eq]

theorem receiveFaces_clock : ∀ (fs : List Face) (s : State), (receiveFaces fs s).clock = s.clock.drop fs.length
  | [], _ => rfl
  | f :: fs, s => by
    rw [receiveFaces, receiveFaces_clock fs, receiveFace_clock, Feed.drop_drop, List.length_cons, Nat.add_comm]

/-- Settles O35: the receive path keeps the application's registers, and each face takes one clock reading. -/
theorem receiveStepFrame : Obligations.ReceiveStepFrame := by
  intro s
  have h := receiveFaces_received allFaces s
  refine ⟨receiveFaces allFaces s, exec_receiveStep s, ?_, fun f => ⟨h.outValue f, h.shadow f, h.sequence f,
    h.postponeSleep f, h.outBytes f, h.outLen f, h.inSlot f⟩⟩
  have hclock : (receiveFaces allFaces s).clock = s.clock.drop 6 := receiveFaces_clock allFaces s
  rw [← hclock]
  exact h.frame

/-! ### One face under any carrier (43 R180 to R185) -/

/-- The polls of an uninterpreted carrier on a face in a receive step. -/
def facePolls (f : Face) (s : State) : Bool × State :=
  pollTimes f (carrierAgain f s) (carrierPolls f s) { s with clock := s.clock.drop 1, carrierRx := s.carrierRx.drop 1 }

/-- Polls write neither the face channels nor the event trace. -/
theorem facePolls_frame (f : Face) (s : State) :
    (facePolls f s).2.config = s.config ∧ (facePolls f s).2.fc = s.fc ∧ (facePolls f s).2.hostEvents = s.hostEvents := by
  refine ⟨?_, ?_, ?_⟩ <;> rw [facePolls, pollTimes_frame]

theorem receiveFace_uninterpreted {s : State} (hc : s.config.carrier = .uninterpreted) (f : Face) :
    receiveFace f s = handleReceived f (s.clockAt 0) (facePolls f s).1
      (carrierPacket f s (facePolls f s).2.carrierLog) (facePolls f s).2 := by
  have hpolls : carrierPoll f s.afterNow = facePolls f s := by
    rw [facePolls, ← Feed.advance_eq_drop, ← Feed.advance_eq_drop]; rfl
  rw [receiveFace, packetRx_uninterpreted (s := s.afterNow) hc, hpolls, State.now_eq_clockAt]
  rfl

/-- The state of a face after its polls: the expiry deadline moves if one found a value (43 R181). -/
def polledFace (f : Face) (s : State) : State :=
  if (facePolls f s).1 then
    { (facePolls f s).2 with
      fc := s.fc.set f { s.fc.get f with expireTimer := timerSet s.config (s.clockAt 0) s.config.expireWindowMs } }
  else (facePolls f s).2

theorem refreshExpiry_facePolls (f : Face) (s : State) :
    (if (facePolls f s).1 then refreshExpiry f (s.clockAt 0) (facePolls f s).2 else (facePolls f s).2) =
      polledFace f s := by
  obtain ⟨hconfig, hfc, -⟩ := facePolls_frame f s
  rw [polledFace, refreshExpiry, State.onFc_eq, hconfig, hfc, State.setFc, hfc]

theorem polledFace_frame (f : Face) (s : State) :
    (polledFace f s).config = s.config ∧ (polledFace f s).hostEvents = s.hostEvents := by
  obtain ⟨hconfig, -, hevents⟩ := facePolls_frame f s
  rw [polledFace]
  split
  · exact ⟨hconfig, hevents⟩
  · exact ⟨hconfig, hevents⟩

theorem receiveFace_of_none {s : State} {f : Face} (hc : s.config.carrier = .uninterpreted)
    (hp : carrierPacket f s (facePolls f s).2.carrierLog = none) : receiveFace f s = polledFace f s := by
  rw [receiveFace_uninterpreted hc, hp, handleReceived, refreshExpiry_facePolls]

theorem receiveFace_of_some {s : State} {f : Face} {p : Packet} (hc : s.config.carrier = .uninterpreted)
    (hp : carrierPacket f s (facePolls f s).2.carrierLog = some p) :
    receiveFace f s = handlePacket f (s.clockAt 0) p (polledFace f s) := by
  rw [receiveFace_uninterpreted hc, hp, handleReceived, refreshExpiry_facePolls]

theorem takeFaceValue_polledFace (f : Face) (v : Byte) (s : State) :
    takeFaceValue f (s.clockAt 0) v (polledFace f s) = { polledFace f s with
      fc := (polledFace f s).fc.set f { (polledFace f s).fc.get f with
        inValue := v, sendTimer := timerSet s.config (s.clockAt 0) 0 } } := by
  rw [takeFaceValue, State.onFc_eq, (polledFace_frame f s).1, State.setFc]

theorem isSpecial_iff (v : Byte) (rest : List Byte) :
    isSpecial ⟨v, rest⟩ = true ↔ rest = [v] ∧ (v = 0x15 ∨ v = 0x33) := by
  simp [isSpecial, Config.sleepConst, Config.wakeConst]

theorem exec_header (f : Face) (h : Byte) (payload : List Byte) (s : State) :
    exec (.header f.val h payload) s = .next (datagramReceive f h payload s) := by
  simp only [exec, execHeader, withFace_val]

/-- Settles O34: the polls, then the packet by its kind. -/
theorem receiveFaceUnderAnyCarrier : Obligations.ReceiveFaceUnderAnyCarrier := by
  intro f s hc now polled s1 packet normal
  have hnormal : ∀ v, normal v = takeFaceValue f now v s1 := fun v => (takeFaceValue_polledFace f v s).symm
  refine ⟨fun hp => receiveFace_of_none hc hp, fun v hp hv => ?special, fun v hp => ?value,
    fun v h payload hp hnot => ?header, fun a rest log hq => ?given, fun again n z => ?polls⟩
  case special =>
    rw [receiveFace_of_some hc hp, handlePacket, if_pos ((isSpecial_iff _ _).mpr ⟨rfl, hv⟩), State.notify,
      (polledFace_frame f s).2]
    rfl
  case value =>
    have hno : ¬isSpecial ⟨v, []⟩ = true := fun h => by cases ((isSpecial_iff _ _).mp h).1
    rw [receiveFace_of_some hc hp, handlePacket, if_neg hno, hnormal]
    rfl
  case header =>
    have hno : ¬isSpecial ⟨v, h :: payload⟩ = true := fun hsp => by
      obtain ⟨hrest, hv⟩ := (isSpecial_iff _ _).mp hsp
      obtain ⟨rfl, rfl⟩ := List.cons.inj hrest
      exact hnot ⟨rfl, rfl, hv⟩
    refine ⟨_, exec_header f h payload _, ?_⟩
    rw [receiveFace_of_some hc hp, handlePacket, if_neg hno, hnormal]
    rfl
  case given =>
    rw [carrierPolls, carrierAgain, carrierPacket, hq]
    exact ⟨rfl, rfl, rfl⟩
  case polls =>
    intro u r
    have hu : preempt z = u := preempt_eq z
    refine ⟨rfl, fun hstop => ?_, fun hgo hpresent => ?_, fun hgo hempty => ?_⟩
    · rw [pollTimes, hstop, if_neg Bool.false_ne_true]
    · have hp : (u.rx.get f).present = true := hpresent
      rw [pollTimes, if_pos hgo, hu]
      simp only [hp, Bool.true_or, pollOnce, RxFace.pollValue_of_present hp, State.onRx_eq, RxFace.afterPoll_of_present hp]
      rfl
    · have hp : (u.rx.get f).present = false := hempty
      rw [pollTimes, if_pos hgo, hu]
      simp only [hp, Bool.false_or, pollOnce, RxFace.pollValue_of_empty hp, State.onRx_eq, RxFace.afterPoll_of_empty hp,
        State.setRx_get_self]

/-! ### The reference carrier (30 R101) -/

/-- The state of a face after the sample steps that fall before its one poll. -/
def sampledFace (s : State) : State :=
  sampleTimes (s.ticks.nth Config.freeTicks 0) { s with clock := s.clock.drop 1, ticks := s.ticks.drop 1 }

theorem preempt_afterNow (s : State) : preempt s.afterNow = sampledFace s := by
  rw [preempt_eq, State.afterNow_eq]; rfl

theorem sampledFace_frame (s : State) : (sampledFace s).config = s.config ∧ (sampledFace s).fc = s.fc := by
  constructor <;> rw [sampledFace, sampleTimes_frame]

/-- A face channel that was given a value at a clock reading (43 R181 to R183). -/
def FaceChannel.given (cfg : Config) (now : Timer) (v : Byte) (c : FaceChannel) : FaceChannel :=
  { c with
    inValue := v, expireTimer := timerSet cfg now cfg.expireWindowMs, sendTimer := timerSet cfg now 0 }

theorem receiveFace_of_empty {s : State} {f : Face} (hc : s.config.carrier = .faceOnly)
    (h : ((sampledFace s).rx.get f).present = false) : receiveFace f s = sampledFace s := by
  rw [receiveFace, packetRx_faceOnly (s := s.afterNow) hc, preempt_afterNow]
  simp only [RxFace.pollValue_of_empty h, RxFace.afterPoll_of_empty h, State.setRx_get_self]
  rfl

theorem receiveFace_of_present {s : State} {f : Face} (hc : s.config.carrier = .faceOnly)
    (h : ((sampledFace s).rx.get f).present = true) :
    receiveFace f s = { sampledFace s with
      rx := (sampledFace s).rx.set f { (sampledFace s).rx.get f with lastValue := 0x00 }
      fc := s.fc.set f
        ((s.fc.get f).given s.config (s.clockAt 0) (((sampledFace s).rx.get f).mailValue.setWidth 8)) } := by
  obtain ⟨hconfig, hfc⟩ := sampledFace_frame s
  rw [receiveFace, packetRx_faceOnly (s := s.afterNow) hc, preempt_afterNow, State.now_eq_clockAt]
  simp only [RxFace.pollValue_of_present h, RxFace.afterPoll_of_present h]
  have hno : ¬isSpecial ⟨((sampledFace s).rx.get f).mailValue.setWidth 8, []⟩ = true := fun hsp => by
    cases ((isSpecial_iff _ _).mp hsp).1
  simp only [Option.map_some, Option.isSome_some, handleReceived, if_true, handlePacket, if_neg hno, refreshExpiry,
    takeFaceValue, State.onFc_eq, State.setFc, State.setRx, hconfig, hfc, PerFace.get_set_same, PerFace.set_set]
  rfl

/-- The mailboxes after the polls of the faces `fs`. -/
def polledOnFaces (s : State) (fs : List Face) : PerFace RxFace :=
  PerFace.ofFn fun f => if f ∈ fs then (s.rx.get f).afterPoll else s.rx.get f

/-- The face channels after the receive step took the values waiting on the faces `fs`. -/
def givenOnFaces (s : State) (fs : List Face) : PerFace FaceChannel :=
  PerFace.ofFn fun f =>
    if f ∈ fs ∧ (s.rx.get f).present = true then
      (s.fc.get f).given s.config (s.clockAt f.val) ((s.rx.get f).mailValue.setWidth 8)
    else s.fc.get f

/-- The state after the receive step on the faces `fs`, when no sample step falls inside. -/
def State.receivedOn (s : State) (fs : List Face) : State :=
  { s with
    clock := s.clock.drop fs.length, ticks := s.ticks.drop fs.length
    rx := polledOnFaces s fs, fc := givenOnFaces s fs }

/-- A register file written face by face. -/
theorem ofFn_mem_append {α : Type} {fs : List Face} {f : Face} (hf : f ∉ fs) (x y : Face → α) :
    (PerFace.ofFn fun g => if g ∈ fs ++ [f] then x g else y g) =
      (PerFace.ofFn fun g => if g ∈ fs then x g else y g).set f (x f) := by
  apply PerFace.ext_get
  intro g
  by_cases hg : g = f
  · subst hg; simp
  · simp [PerFace.get_set_of_ne _ _ hg, hg]

theorem polledOnFaces_append {s : State} {fs : List Face} {f : Face} (hf : f ∉ fs) :
    polledOnFaces s (fs ++ [f]) = (polledOnFaces s fs).set f (s.rx.get f).afterPoll :=
  ofFn_mem_append hf _ _

theorem polledOnFaces_get {s : State} {fs : List Face} {f : Face} (hf : f ∉ fs) :
    (polledOnFaces s fs).get f = s.rx.get f := by
  simp [polledOnFaces, hf]

theorem givenOnFaces_get {s : State} {fs : List Face} {f : Face} (hf : f ∉ fs) :
    (givenOnFaces s fs).get f = s.fc.get f := by
  simp [givenOnFaces, hf]

theorem givenOnFaces_append_of_present {s : State} {fs : List Face} {f : Face}
    (h : (s.rx.get f).present = true) :
    givenOnFaces s (fs ++ [f]) = (givenOnFaces s fs).set f
      ((s.fc.get f).given s.config (s.clockAt f.val) ((s.rx.get f).mailValue.setWidth 8)) := by
  apply PerFace.ext_get
  intro g
  by_cases hg : g = f
  · subst hg; simp [givenOnFaces, h]
  · simp [givenOnFaces, PerFace.get_set_of_ne _ _ hg, hg]

theorem givenOnFaces_append_of_empty {s : State} {fs : List Face} {f : Face} (h : (s.rx.get f).present = false) :
    givenOnFaces s (fs ++ [f]) = givenOnFaces s fs := by
  apply PerFace.ext_get
  intro g
  by_cases hg : g = f
  · subst hg; simp [givenOnFaces, h]
  · simp [givenOnFaces, hg]

/-- With no sample step due, a face sees what the mailboxes held. -/
theorem sampledFace_receivedOn {s : State} {fs : List Face} (f : Face)
    (hquiet : s.ticks.nth Config.freeTicks fs.length = 0) :
    sampledFace (s.receivedOn fs) = { s.receivedOn fs with
      clock := s.clock.drop (fs ++ [f]).length, ticks := s.ticks.drop (fs ++ [f]).length } := by
  have hticks : (s.receivedOn fs).ticks.nth Config.freeTicks 0 = 0 := by
    show (s.ticks.drop fs.length).nth _ 0 = 0
    rw [Feed.nth_drop]; exact hquiet
  have hlen : fs.length + 1 = (fs ++ [f]).length := by simp
  rw [sampledFace, hticks, sampleTimes, ← hlen, ← Feed.drop_drop, ← Feed.drop_drop]
  rfl

theorem receiveFace_receivedOn {s : State} {fs rest : List Face} {f : Face} (hc : s.config.carrier = .faceOnly)
    (h : allFaces = fs ++ f :: rest) (hquiet : s.ticks.nth Config.freeTicks fs.length = 0) :
    receiveFace f (s.receivedOn fs) = s.receivedOn (fs ++ [f]) := by
  obtain ⟨hval, hf⟩ := allFaces_split h
  have hsampled := sampledFace_receivedOn f hquiet
  have hrx : (sampledFace (s.receivedOn fs)).rx.get f = s.rx.get f := by rw [hsampled]; exact polledOnFaces_get hf
  have hnow : (s.receivedOn fs).clockAt 0 = s.clockAt f.val := by
    rw [hval, State.clockAt, State.clockAt]
    show (s.clock.drop fs.length).nth _ 0 % _ = _
    rw [Feed.nth_drop]; rfl
  cases hp : (s.rx.get f).present with
  | false =>
    rw [receiveFace_of_empty (s := s.receivedOn fs) hc (by rw [hrx, hp]), hsampled, State.receivedOn, State.receivedOn,
      polledOnFaces_append hf, givenOnFaces_append_of_empty hp, RxFace.afterPoll_of_empty hp, ← polledOnFaces_get hf,
      PerFace.set_get_self]
  | true =>
    have hfc : (s.receivedOn fs).fc.get f = s.fc.get f := givenOnFaces_get hf
    rw [receiveFace_of_present (s := s.receivedOn fs) hc (by rw [hrx, hp]), hrx, hnow, hfc, hsampled]
    rw [State.receivedOn, State.receivedOn, polledOnFaces_append hf, givenOnFaces_append_of_present hp,
      RxFace.afterPoll_of_present hp]

theorem receiveFaces_receivedOn {s : State} (hc : s.config.carrier = .faceOnly) (hquiet : s.quietFor 6) :
    ∀ (rest fs : List Face), allFaces = fs ++ rest → receiveFaces rest (s.receivedOn fs) = s.receivedOn allFaces
  | [], fs, h => by rw [List.append_nil] at h; rw [receiveFaces, h]
  | f :: rest, fs, h => by
    have hlt : fs.length < 6 := by rw [← (allFaces_split h).1]; exact f.isLt
    rw [receiveFaces, receiveFace_receivedOn hc h (hquiet _ hlt)]
    exact receiveFaces_receivedOn hc hquiet rest (fs ++ [f]) (by rw [h, List.append_assoc]; rfl)

theorem State.receivedOn_nil (s : State) : s.receivedOn [] = s := by
  have hrx : polledOnFaces s [] = s.rx := PerFace.ext_get (by simp [polledOnFaces])
  have hfc : givenOnFaces s [] = s.fc := PerFace.ext_get (by simp [givenOnFaces])
  rw [State.receivedOn, hrx, hfc]
  rfl

/-- Settles O33: one poll a face, and a value found is taken as the face value. -/
theorem receiveStepUnderTheReferenceCarrier : Obligations.ReceiveStepUnderTheReferenceCarrier := by
  intro s hc
  refine ⟨fun f => ⟨fun h => receiveFace_of_present hc h, fun h => receiveFace_of_empty hc h⟩, fun hquiet => ?_⟩
  have h := receiveFaces_receivedOn hc hquiet allFaces [] rfl
  rw [State.receivedOn_nil] at h
  rw [exec_receiveStep, h, State.receivedOn]
  simp only [polledOnFaces, givenOnFaces, mem_allFaces, true_and, if_true]
  rfl

end Sys2Proof.Machine

namespace Sys2Proof.Machine

/-! ### The packet sent (43 R187) -/

theorem Slot.length_content (sl : Slot) : sl.content.length = sl.len.val := Memory.length_readAll _ _ _

/-- Settles O37: the layout is the definition's, and a header byte has bit 7 set, which no reserved constant has. -/
theorem outPacketLayout : Obligations.OutPacketLayout := by
  intro f s
  have hnonSpecial : (s.fc.get f).header.toByte.getLsbD 7 = true := headerNonSpecial_toByte _
  have hlen : (outPacket f s).bytes.length = (s.dgOut.get f).len.val + 2 := by
    simp [outPacket, Packet.bytes, Slot.length_content]
  have hbound := (s.dgOut.get f).len.isLt
  refine ⟨(s.fc.get f).header.toByte, ?_, headerSeq_toByte _, headerAck_toByte _, headerPostpone_toByte _, hnonSpecial,
    by omega, by omega, ?_⟩
  · rw [← Slot.content_eq_map]; rfl
  · rw [Bool.eq_false_iff]
    intro hsp
    obtain ⟨hrest, hv⟩ := (isSpecial_iff _ _).mp hsp
    obtain ⟨hheader, -⟩ := List.cons.inj hrest
    rw [hheader] at hnonSpecial
    rcases hv with hv | hv <;> rw [hv] at hnonSpecial <;> cases hnonSpecial

/-! ### Arming a datagram (44 R204) -/

theorem arm_eq (f : Face) (bytes : List Byte) (s : State) :
    arm f bytes s = { s with
      dgOut := s.dgOut.set f ((s.dgOut.get f).fill bytes)
      fc := s.fc.set f { s.fc.get f with
        header := { (s.fc.get f).header with sequence := (s.fc.get f).header.sequence + 1 } } } := rfl

/-- A filled slot, byte by byte. -/
theorem Slot.read_fill {sl : Slot} {bs : List Byte} (hw : Memory.wf sl.bytes = true) (h : bs.length ≤ 16) (i : Nat) :
    Memory.read (sl.fill bs).bytes i = if i < bs.length then bs.getD i 0 else Memory.read sl.bytes i := by
  rw [fill_bytes, Memory.read_writeAll bs hw (by omega)]
  simp

theorem exec_sendDatagram_of_empty {f : Face} {bytes : List Byte} {s : State} (hempty : (s.dgOut.get f).len = 0)
    (h1 : 1 ≤ bytes.length) (h16 : bytes.length ≤ 16) (hsleep : bytes.head? ≠ some 0x15)
    (hwake : bytes.head? ≠ some 0x33) :
    exec (.sendDatagram f.val bytes) s = .next ((arm f bytes s).returns (.flag true)) := by
  rw [exec_sendDatagram hsleep hwake, if_pos (canArm_iff.mpr ⟨hempty, h1, h16⟩)]

/-- Settles O45: the slot is filled and the sequence number incremented. -/
theorem sendDatagramArmsTheSlot : Obligations.SendDatagramArmsTheSlot := by
  intro f bytes s hinv hempty h1 h16 hsleep hwake
  have hw := ((State.inv_iff s).mp hinv).1.wf_out f
  exact ⟨(s.dgOut.get f).fill bytes, by rw [exec_sendDatagram_of_empty hempty h1 h16 hsleep hwake, arm_eq]; rfl,
    Slot.len_fill h16, Slot.content_fill hw h16, Slot.read_fill hw h16⟩

/-! ### A received header (44 R207 to R212) -/

/-- The state after a header was reported and its acknowledgement treated (44 R210, R221). -/
def State.acknowledged (s : State) (f : Face) (h : Byte) : State :=
  { s with
    hostEvents := s.hostEvents ++ (if h.getLsbD 6 then [.postponeSleepSeen f] else [])
    dgOut :=
      if h.extractLsb' 3 3 = (s.fc.get f).header.sequence then s.dgOut.set f { s.dgOut.get f with len := 0 } else s.dgOut }

theorem acknowledge_reportPostpone (f : Face) (h : Byte) (s : State) :
    acknowledge f h (reportPostpone f h s) = s.acknowledged f h := by
  have hreport : reportPostpone f h s = { s with
      hostEvents := s.hostEvents ++ (if h.getLsbD 6 then [.postponeSleepSeen f] else []) } := by
    show (if h.getLsbD 6 then s.notify (.postponeSleepSeen f) else s) = _
    split
    · rfl
    · rw [List.append_nil]
  rw [acknowledge, reportPostpone_fc, hreport]
  show (if h.extractLsb' 3 3 = (s.fc.get f).header.sequence then _ else _) = _
  rw [State.acknowledged]
  split <;> rfl

/-- Is the datagram behind a header taken (44 R212)? -/
def Taken (f : Face) (h : Byte) (payload : List Byte) (s : State) : Prop :=
  1 ≤ payload.length ∧ h.extractLsb' 0 3 ≠ (s.fc.get f).header.ackSequence ∧ (s.dgIn.get f).len = 0

theorem accept_of_taken {f : Face} {h : Byte} {payload : List Byte} {s : State} (ht : Taken f h payload s) :
    accept f h payload s = { s with
      dgIn := s.dgIn.set f ((s.dgIn.get f).fill payload)
      fc := s.fc.set f { s.fc.get f with
        header := { (s.fc.get f).header with ackSequence := h.extractLsb' 0 3 } } } := by
  rw [accept, if_pos (accepts_iff.mpr ht)]; rfl

theorem accept_of_not_taken {f : Face} {h : Byte} {payload : List Byte} {s : State} (ht : ¬Taken f h payload s) :
    accept f h payload s = s := by
  rw [accept, if_neg (fun hacc => ht (accepts_iff.mp hacc))]

/-- The rules of a header within the layout, in their order. -/
theorem datagramReceive_of_layout {h : Byte} {payload : List Byte} (h7 : h.getLsbD 7 = true)
    (hlen : payload.length ≤ 16) (f : Face) (s : State) :
    datagramReceive f h payload s = accept f h payload (s.acknowledged f h) := by
  have hcond : (headerNonSpecial h && decide (payload.length ≤ Config.datagramCapacity)) = true := by
    rw [Bool.and_eq_true, decide_eq_true_eq]; exact ⟨h7, hlen⟩
  rw [datagramReceive, if_pos hcond, acknowledge_reportPostpone]

theorem datagramReceive_outside_layout {h : Byte} {payload : List Byte}
    (hout : h.getLsbD 7 = false ∨ 16 < payload.length) (f : Face) (s : State) : datagramReceive f h payload s = s := by
  obtain hnone | ⟨h7, hlen, -⟩ := datagramReceive_cases f h payload s
  · exact hnone
  · rcases hout with h7' | hlen'
    · have h7 : h.getLsbD 7 = true := h7
      rw [h7'] at h7; cases h7
    · omega

/-- Settles O47: report, acknowledgement and acceptance write different registers. -/
theorem headerAcknowledgesAndDelivers : Obligations.HeaderAcknowledgesAndDelivers := by
  refine ⟨fun f h payload s hinv h7 hlen => ?_, fun f h payload s hout => ?_⟩
  · intro c taken
    have hw := ((State.inv_iff s).mp hinv).1.wf_in f
    refine ⟨_, exec_header f h payload s, ?_⟩
    rw [datagramReceive_of_layout h7 hlen]
    by_cases ht : taken
    · rw [accept_of_taken (s := s.acknowledged f h) ht]
      refine ⟨by rw [if_pos ht]; rfl, fun g hg => PerFace.get_set_of_ne _ _ hg, fun _ => ?_, fun hnot => absurd ht hnot⟩
      simp only [PerFace.get_set_same]
      exact ⟨Slot.content_fill hw hlen, Slot.len_fill hlen, Slot.read_fill hw hlen⟩
    · rw [accept_of_not_taken (s := s.acknowledged f h) ht]
      exact ⟨by rw [if_neg ht]; rfl, fun g _ => rfl, fun h => absurd h ht, fun _ => rfl⟩
  · rw [exec_header, datagramReceive_outside_layout hout]

/-! ### A datagram from tile to tile (44 R218, R222) -/

/-- What acceptance leaves on its face: the payload, and its number (44 R212). -/
theorem datagramReceive_delivers {h : Byte} {payload : List Byte} {f : Face} {s : State} (h7 : h.getLsbD 7 = true)
    (hlen : payload.length ≤ 16) (hw : Memory.wf (s.dgIn.get f).bytes = true) (ht : Taken f h payload s) :
    ((datagramReceive f h payload s).dgIn.get f).content = payload ∧
      ((datagramReceive f h payload s).fc.get f).header.ackSequence = h.extractLsb' 0 3 := by
  rw [datagramReceive_of_layout h7 hlen, accept_of_taken (s := s.acknowledged f h) ht]
  simp only [PerFace.get_set_same]
  exact ⟨Slot.content_fill hw hlen, trivial⟩

/-- What an acknowledgement leaves of the outbound slot (44 R210). -/
theorem datagramReceive_acknowledges {h : Byte} {payload : List Byte} {f : Face} {s : State} (h7 : h.getLsbD 7 = true)
    (hlen : payload.length ≤ 16) (hack : h.extractLsb' 3 3 = (s.fc.get f).header.sequence) :
    ((datagramReceive f h payload s).dgOut.get f).len = 0 := by
  have hout : (s.acknowledged f h).dgOut = s.dgOut.set f { s.dgOut.get f with len := 0 } := if_pos hack
  have hkeeps : (accept f h payload (s.acknowledged f h)).dgOut = (s.acknowledged f h).dgOut := by
    unfold accept
    split <;> rfl
  rw [datagramReceive_of_layout h7 hlen, hkeeps, hout, PerFace.get_set_same]

/-- Settles O52: arming, delivery, acknowledgement and the duplicate, each by its rule. -/
theorem datagramIsDeliveredOnceAndAcknowledged : Obligations.DatagramIsDeliveredOnceAndAcknowledged := by
  intro f g bytes a b hinva hinvb hempty h1 h16 hsleep hwake hin hnew
  have hwa := ((State.inv_iff a).mp hinva).1.wf_out f
  have hwb := ((State.inv_iff b).mp hinvb).1.wf_in g
  let a1 : State := (arm f bytes a).returns (.flag true)
  have hfc : (a1.fc.get f).header.sequence = (a.fc.get f).header.sequence + 1 := by
    show (((arm f bytes a).fc).get f).header.sequence = _
    rw [arm_eq]; simp
  have hslot : a1.dgOut.get f = (a.dgOut.get f).fill bytes := by
    show ((arm f bytes a).dgOut).get f = _
    rw [arm_eq]; simp
  let h : Byte := (a1.fc.get f).header.toByte
  have h7 : h.getLsbD 7 = true := headerNonSpecial_toByte _
  have hseq : h.extractLsb' 0 3 = (a.fc.get f).header.sequence + 1 := (headerSeq_toByte _).trans hfc
  let b1 : State := datagramReceive g h bytes b
  have htaken : Taken g h bytes b := ⟨h1, by rw [hseq]; exact fun heq => hnew heq.symm, hin⟩
  obtain ⟨hcontent, hack⟩ := datagramReceive_delivers h7 h16 hwb htaken
  let k : Byte := (b1.fc.get g).header.toByte
  have hk : k.extractLsb' 3 3 = (a1.fc.get f).header.sequence := by
    rw [hfc, ← hseq, ← hack]; exact headerAck_toByte _
  let b2 : State := b1.returns (.bytes (b1.dgIn.get g).content)
  let b3 : State := b2.setDgIn g (b2.dgIn.get g).free
  have hfreed : (b3.dgIn.get g).len = 0 := by simp [b3]
  refine ⟨a1, datagramReceive f k [] a1, b1, b2, b3, datagramReceive g h bytes b3, h, k,
    exec_sendDatagram_of_empty hempty h1 h16 hsleep hwake, ?_, exec_header g h bytes b, exec_getDatagram g b1,
    congrArg (fun c => some (Result.bytes c)) hcontent, rfl, exec_header f k [] a1,
    datagramReceive_acknowledges (headerNonSpecial_toByte _) (by simp) hk, exec_consumeDatagram g b2,
    exec_header g h bytes b3, ?_⟩
  · show h :: (a1.dgOut.get f).content = _
    rw [hslot, Slot.content_fill hwa h16]
  · have hdup : headerSeq h = (b3.fc.get g).header.ackSequence := hack.symm
    rw [datagramReceive_duplicate_dgIn hdup, hfreed]

/-! ### Every well-formed operation completes (00 R15) -/

theorem face_of_faceOk {f : Nat} (hf : faceOk f = true) : ∃ g : Face, f = g.val := ⟨⟨f, of_decide_eq_true hf⟩, rfl⟩

theorem head?_of_payloadOk {bytes : List Byte} (hb : payloadOk bytes = true) :
    bytes.head? ≠ some 0x15 ∧ bytes.head? ≠ some 0x33 := by
  cases bytes with
  | nil => simp
  | cons b bs =>
    simp only [payloadOk, Bool.and_eq_true, bne_iff_ne] at hb
    exact ⟨fun h => hb.1 (Option.some.inj h), fun h => hb.2 (Option.some.inj h)⟩

/-- A row of the pattern match completes on every face. -/
theorem exec_outcome_completes (c : SampleClass) {f : Nat} (hf : faceOk f = true) (s : State) :
    ∃ t, exec (c.instr f) s = .next t := by
  obtain ⟨g, rfl⟩ := face_of_faceOk hf
  exact ⟨_, exec_outcome c g s⟩

/-- An operation with a face operand and no other completes on every face. -/
theorem exec_face_completes {k : Nat → Instr} {g : Face → State → State}
    (hk : ∀ f s, exec (k f.val) s = .next (g f s)) {f : Nat} (hf : faceOk f = true) (s : State) :
    ∃ t, exec (k f) s = .next t := by
  obtain ⟨h, rfl⟩ := face_of_faceOk hf
  exact ⟨_, hk h s⟩

theorem packetTx_error {m : Mask} {p : Packet} {s : State} {e : Refusal} (h : packetTx m p s = .error e) :
    s.config.carrier = .faceOnly ∧ 128 ≤ p.first.toNat ∧ e = .faceValueTooWide p.first := by
  cases hc : s.config.carrier with
  | uninterpreted => rw [packetTx_uninterpreted hc] at h; cases h
  | faceOnly =>
    rw [packetTx_faceOnly hc] at h
    split at h
    · cases h
    · cases h; exact ⟨rfl, Nat.not_lt.mp ‹_›, rfl⟩

theorem sendFaces_error : ∀ (fs : List Face) {s : State} {e : Refusal}, sendFaces fs s = .error e →
    s.config.carrier = .faceOnly ∧ ∃ v : Byte, 128 ≤ v.toNat ∧ e = .faceValueTooWide v
  | [], s, e, h => by cases h
  | f :: fs, s, e, h => by
    cases ht : sendFace f s with
    | ok t =>
      rw [sendFaces_cons_of_ok ht] at h
      obtain ⟨hc, hv⟩ := sendFaces_error fs h
      rw [(sendFace_sends ht).config] at hc
      exact ⟨hc, hv⟩
    | error e' =>
      rw [sendFaces_cons_of_error ht] at h
      cases h
      unfold sendFace at ht
      split at ht
      · split at ht
        · cases ht
        next htx =>
          cases ht
          obtain ⟨hc, hv, he⟩ := packetTx_error htx
          exact ⟨hc, _, hv, he⟩
      · cases ht

/-- A transmission completes, or meets a wide face value under the reference carrier. -/
theorem sent_completes {r : Except Refusal State} {s : State}
    (herror : ∀ e, r = .error e → s.config.carrier = .faceOnly ∧ ∃ v : Byte, 128 ≤ v.toNat ∧ e = .faceValueTooWide v) :
    (∃ t, sent r = .next t) ∨
      (s.config.carrier = .faceOnly ∧ ∃ v : Byte, 128 ≤ v.toNat ∧ sent r = .refused (.faceValueTooWide v)) := by
  cases r with
  | ok t => exact .inl ⟨t, rfl⟩
  | error e =>
    obtain ⟨hc, v, hv, rfl⟩ := herror e rfl
    exact .inr ⟨hc, v, hv, rfl⟩

/-- Settles O55: the operands are in their domains, and only a carrier can refuse what they stand for. -/
theorem wellFormedOperationsComplete : Obligations.WellFormedOperationsComplete := by
  intro i s hwf hsleep hactive
  cases i with
  | txsSync m | txsZero m | txsOne m => exact .inl ⟨_, withMask_ne (maskOk_iff.mp hwf) _⟩
  | txByte m v =>
    obtain ⟨hm, hv⟩ := (Bool.and_eq_true _ _).mp hwf
    exact .inl ⟨_, exec_txByte (maskOk_iff.mp hm) (of_decide_eq_true hv) s⟩
  | txPacket m bytes =>
    obtain ⟨hm, hlen⟩ := (Bool.and_eq_true _ _).mp hwf
    simp only [packetLengthOk, Bool.and_eq_true, decide_eq_true_eq] at hlen
    cases bytes with
    | nil => exact absurd hlen.1 (by simp)
    | cons b bs =>
      have herror : ∀ e, packetTx m ⟨b, bs⟩ s = .error e → s.config.carrier = .faceOnly ∧
          ∃ v : Byte, 128 ≤ v.toNat ∧ e = .faceValueTooWide v := fun e he => by
        obtain ⟨hc, hv, rfl⟩ := packetTx_error he
        exact ⟨hc, b, hv, rfl⟩
      rw [exec_txPacket (maskOk_iff.mp hm) (Nat.le_of_succ_le_succ hlen.2)]
      exact (sent_completes herror).imp_right fun ⟨hc, hv⟩ => ⟨hc, .inr ⟨m, _, rfl⟩, hv⟩
  | sendStep =>
    exact (sent_completes fun e he => sendFaces_error allFaces he).imp_right fun ⟨hc, hv⟩ => ⟨hc, .inl rfl, hv⟩
  | sampleStep | receiveStep | isAlone => exact .inl ⟨_, rfl⟩
  | setOutgoingValueAll v => exact .inl ⟨_, rfl⟩
  | enterSleep => exact absurd rfl hsleep
  | notifyActivity => exact absurd rfl hactive
  | symZero f => exact .inl (exec_outcome_completes .zero hwf s)
  | symOneAdj f => exact .inl (exec_outcome_completes .oneAdj hwf s)
  | symOneSkew f => exact .inl (exec_outcome_completes .oneSkew hwf s)
  | symSync f => exact .inl (exec_outcome_completes .sync hwf s)
  | rxDropout f => exact .inl (exec_outcome_completes .dropout hwf s)
  | rxNoise1011 f => exact .inl (exec_outcome_completes .noise1011 hwf s)
  | rxNoise1101 f => exact .inl (exec_outcome_completes .noise1101 hwf s)
  | rxNoise10101 f => exact .inl (exec_outcome_completes .noise10101 hwf s)
  | rxNone f => exact .inl (exec_outcome_completes .nothing hwf s)
  | irPoll f => exact .inl (exec_face_completes exec_irPoll hwf s)
  | irGetData f => exact .inl (exec_face_completes exec_irGetData hwf s)
  | irReadErrors f => exact .inl (exec_face_completes exec_irReadErrors hwf s)
  | setOutgoingValue f v =>
    exact .inl (exec_face_completes (k := (.setOutgoingValue · v)) (exec_setOutgoingValue · v) hwf s)
  | getIncomingValue f => exact .inl (exec_face_completes exec_getIncomingValue hwf s)
  | didValueChange f => exact .inl (exec_face_completes exec_didValueChange hwf s)
  | isExpired f => exact .inl (exec_face_completes exec_isExpired hwf s)
  | sendDatagram f bytes =>
    obtain ⟨hf, hb⟩ := (Bool.and_eq_true _ _).mp hwf
    obtain ⟨hsleep, hwake⟩ := head?_of_payloadOk hb
    exact .inl (exec_face_completes (k := (.sendDatagram · bytes)) (exec_sendDatagram hsleep hwake) hf s)
  | isDatagramPending f => exact .inl (exec_face_completes (fun g s => (datagramQueriesOnlyRead g s).1) hwf s)
  | isDatagramReady f => exact .inl (exec_face_completes (fun g s => (datagramQueriesOnlyRead g s).2.1) hwf s)
  | datagramLength f => exact .inl (exec_face_completes (fun g s => (datagramQueriesOnlyRead g s).2.2.1) hwf s)
  | getDatagram f => exact .inl (exec_face_completes exec_getDatagram hwf s)
  | consumeDatagram f => exact .inl (exec_face_completes exec_consumeDatagram hwf s)
  | setPostponeSleep f b =>
    exact .inl (exec_face_completes (k := (.setPostponeSleep · b)) (setPostponeSleepWritesTheHeaderBit · b) hwf s)
  | header f h payload => exact .inl (exec_face_completes (k := (.header · h payload)) (exec_header · h payload) hwf s)
  | specialSleep f => exact .inl (exec_face_completes (fun g s => (exec_special g s).1) hwf s)
  | specialWake f => exact .inl (exec_face_completes (fun g s => (exec_special g s).2) hwf s)

end Sys2Proof.Machine

namespace Sys2Proof.Machine

/-! ### Who writes which register (10 R28 to R37, 60 R242) -/

/-- What a header does to the face channels: nothing, or it records the number of the datagram it delivers (44 R212). -/
theorem datagramReceive_fc (f : Face) (h : Byte) (payload : List Byte) (s : State) :
    (datagramReceive f h payload s).fc = s.fc ∨
    (datagramReceive f h payload s).fc = s.fc.set f { s.fc.get f with
      header := { (s.fc.get f).header with ackSequence := h.extractLsb' 0 3 } } := by
  obtain hnone | ⟨h7, hlen, -⟩ := datagramReceive_cases f h payload s
  · rw [hnone]; exact .inl rfl
  · rw [datagramReceive_of_layout h7 hlen]
    by_cases ht : Taken f h payload s
    · rw [accept_of_taken (s := s.acknowledged f h) ht]; exact .inr rfl
    · rw [accept_of_not_taken (s := s.acknowledged f h) ht]; exact .inl rfl

/-- What a header does to the outbound slots: nothing, or it empties its face's by a matching `ack` (44 R210). -/
theorem datagramReceive_dgOut (f : Face) (h : Byte) (payload : List Byte) (s : State) :
    (datagramReceive f h payload s).dgOut = s.dgOut ∨
    (h.getLsbD 7 = true ∧ h.extractLsb' 3 3 = (s.fc.get f).header.sequence ∧
      (datagramReceive f h payload s).dgOut = s.dgOut.set f (s.dgOut.get f).free) := by
  obtain hnone | ⟨h7, hlen, -⟩ := datagramReceive_cases f h payload s
  · rw [hnone]; exact .inl rfl
  · have hkeeps : (accept f h payload (s.acknowledged f h)).dgOut = (s.acknowledged f h).dgOut := by
      unfold accept
      split <;> rfl
    rw [datagramReceive_of_layout h7 hlen, hkeeps]
    by_cases hack : h.extractLsb' 3 3 = (s.fc.get f).header.sequence
    · exact .inr ⟨h7, hack, if_pos hack⟩
    · exact .inl (if_neg hack)

theorem packetTx_fc {m : Mask} {p : Packet} {s t : State} (h : packetTx m p s = .ok t) : t.fc = s.fc := by
  obtain ⟨frs, u, hfrs, rfl⟩ := packetTx_ok h
  obtain ⟨-, -, -, rfl⟩ | ⟨-, -, rfl⟩ := packetFrames_ok hfrs <;> rfl

/-- The writers of the registers of face `f`: each register that differs afterwards is one that the operation may write. -/
structure WrittenBy (i : Instr) (f : Face) (c c' : FaceChannel) (b b' : Memory) : Prop where
  inValue : c'.inValue ≠ c.inValue → i = .receiveStep := by exact fun h => absurd rfl h
  expireTimer : c'.expireTimer ≠ c.expireTimer → i = .receiveStep ∨ i = .specialSleep f.val ∨ i = .specialWake f.val := by
    exact fun h => absurd rfl h
  outValue : c'.outValue ≠ c.outValue → (∃ v, i = .setOutgoingValue f.val v) ∨ ∃ v, i = .setOutgoingValueAll v := by
    exact fun h => absurd rfl h
  sendTimer : c'.sendTimer ≠ c.sendTimer → i = .receiveStep ∨ i = .sendStep := by exact fun h => absurd rfl h
  sequence : c'.header.sequence ≠ c.header.sequence → ∃ bytes, i = .sendDatagram f.val bytes := by
    exact fun h => absurd rfl h
  ackSequence : c'.header.ackSequence ≠ c.header.ackSequence →
      i = .receiveStep ∨ ∃ h payload, i = .header f.val h payload := by
    exact fun h => absurd rfl h
  postponeSleep : c'.header.postponeSleep ≠ c.header.postponeSleep → ∃ p, i = .setPostponeSleep f.val p := by
    exact fun h => absurd rfl h
  shadow : c'.shadow ≠ c.shadow → i = .didValueChange f.val := by exact fun h => absurd rfl h
  outBytes : b' ≠ b → ∃ bytes, i = .sendDatagram f.val bytes := by exact fun h => absurd rfl h

theorem WrittenBy.refl (i : Instr) (f : Face) (c : FaceChannel) (b : Memory) : WrittenBy i f c c b b := {}

/-- An operation that writes the channel of one face. -/
theorem WrittenBy.set {i : Instr} {g : Face} {v : PerFace FaceChannel} {c : FaceChannel} {b : Memory}
    (h : WrittenBy i g (v.get g) c b b) (f : Face) (b' : Memory) : WrittenBy i f (v.get f) ((v.set g c).get f) b' b' := by
  rw [PerFace.get_set]
  split
  next hfg =>
    subst hfg
    exact { h with outBytes := fun hne => absurd rfl hne }
  next => exact .refl _ _ _ _

theorem Effect.writtenBy {s t : State} {i : Instr} (he : Effect s i t) (f : Face) :
    WrittenBy i f (s.fc.get f) (t.fc.get f) (s.dgOut.get f).bytes (t.dgOut.get f).bytes := by
  cases he with
  | txPacket m p t hsent =>
    rw [packetTx_fc hsent, (packetTx_sends hsent).frame]
    exact .refl _ _ _ _
  | sendStep t hsent =>
    have hsends := sendFaces_sends allFaces hsent
    obtain ⟨x, hx, -⟩ := hsends.timers f
    have hout : t.dgOut = s.dgOut := by rw [hsends.frame]
    rw [hx, hout]
    exact { sendTimer := fun _ => .inr rfl }
  | receiveStep =>
    have hr := receiveFaces_received allFaces s
    exact {
      inValue := fun _ => rfl
      expireTimer := fun _ => .inl rfl
      outValue := fun h => absurd (hr.outValue f) h
      sendTimer := fun _ => .inl rfl
      sequence := fun h => absurd (hr.sequence f) h
      ackSequence := fun _ => .inl rfl
      postponeSleep := fun h => absurd (hr.postponeSleep f) h
      shadow := fun h => absurd (hr.shadow f) h
      outBytes := fun h => absurd (hr.outBytes f) h }
  | setOutgoingValue g v => exact WrittenBy.set (b := []) { outValue := fun _ => .inl ⟨v, rfl⟩ } f _
  | setOutgoingValueAll v =>
    rw [PerFace.get_ofFn]
    exact { outValue := fun _ => .inr ⟨v, rfl⟩ }
  | didValueChange g r => exact WrittenBy.set (b := []) { shadow := fun _ => rfl } f _
  | setPostponeSleep g b => exact WrittenBy.set (b := []) { postponeSleep := fun _ => ⟨b, rfl⟩ } f _
  | arms g bytes hcan =>
    by_cases hfg : f = g
    · subst hfg
      rw [arm_eq]
      simp only [State.returns_fc, PerFace.get_set_same]
      exact { sequence := fun _ => ⟨bytes, rfl⟩, outBytes := fun _ => ⟨bytes, rfl⟩ }
    · rw [arm_eq]
      simp only [State.returns_fc, State.returns_dgOut, PerFace.get_set_of_ne _ _ hfg]
      exact .refl _ _ _ _
  | header g h payload =>
    have hbytes := (datagramReceive_received g h payload s).outBytes f
    rw [hbytes]
    obtain hfc | hfc := datagramReceive_fc g h payload s
    · rw [hfc]; exact .refl _ _ _ _
    · rw [hfc]
      exact WrittenBy.set (b := []) { ackSequence := fun _ => .inr ⟨h, payload, rfl⟩ } f _
  | special i g c hrow =>
    exact WrittenBy.set (b := []) (g := g) { expireTimer := fun _ => .inr hrow } f _
  | _ => exact .refl _ _ _ _

/-! ### Outbound slots (10 R37) -/

theorem handlePacket_dgOut_of_ne {f g : Face} (hne : g ≠ f) (now : Timer) (p : Packet) (s : State) :
    (handlePacket f now p s).dgOut.get g = s.dgOut.get g := by
  unfold handlePacket
  split
  · rfl
  · split
    · rfl
    next h payload _ =>
      obtain hout | ⟨-, -, hout⟩ := datagramReceive_dgOut f h payload (takeFaceValue f now p.first s)
      · rw [hout]; rfl
      · rw [hout, PerFace.get_set_of_ne _ _ hne]; rfl

theorem handleReceived_dgOut_of_ne {f g : Face} (hne : g ≠ f) (now : Timer) (saw : Bool) (pkt : Option Packet)
    (s : State) : (handleReceived f now saw pkt s).dgOut.get g = s.dgOut.get g := by
  cases pkt with
  | none => cases saw <;> rfl
  | some p =>
    cases saw with
    | false => exact handlePacket_dgOut_of_ne hne now p s
    | true => exact handlePacket_dgOut_of_ne hne now p (refreshExpiry f now s)

/-- The treatment of a face leaves the outbound slots of the others. -/
theorem receiveFace_dgOut_of_ne {f g : Face} (hne : g ≠ f) (s : State) :
    (receiveFace f s).dgOut.get g = s.dgOut.get g := by
  rw [receiveFace, handleReceived_dgOut_of_ne hne, packetRx_frame]
  rfl

theorem receiveFaces_dgOut_of_not_mem {g : Face} : ∀ (fs : List Face), g ∉ fs → ∀ s : State,
    (receiveFaces fs s).dgOut.get g = s.dgOut.get g
  | [], _, _ => rfl
  | f :: fs, hg, s => by
    obtain ⟨hne, hfs⟩ := not_or.mp (List.mem_cons.not.mp hg)
    rw [receiveFaces, receiveFaces_dgOut_of_not_mem fs hfs, receiveFace_dgOut_of_ne hne]

theorem receiveFaces_append (fs gs : List Face) (s : State) :
    receiveFaces (fs ++ gs) s = receiveFaces gs (receiveFaces fs s) := by
  induction fs generalizing s with
  | nil => rfl
  | cons f fs ih => exact ih _

theorem polledFace_dgOut (f : Face) (s : State) : (polledFace f s).dgOut = s.dgOut := by
  have hpolls : (facePolls f s).2.dgOut = s.dgOut := by rw [facePolls, pollTimes_frame]
  rw [polledFace]
  split
  · exact hpolls
  · exact hpolls

theorem sampledFace_dgOut (s : State) : (sampledFace s).dgOut = s.dgOut := by
  rw [sampledFace, sampleTimes_frame]

theorem polledFace_sequence (f : Face) (s : State) :
    ((polledFace f s).fc.get f).header = (s.fc.get f).header := by
  obtain ⟨-, hfc, -⟩ := facePolls_frame f s
  rw [polledFace]
  split
  · simp
  · rw [hfc]

/-- A receive step that empties the outbound slot of the face it treats was given a header that acknowledges it. -/
theorem receiveFace_empties {f : Face} {s : State} (hne : (receiveFace f s).dgOut.get f ≠ s.dgOut.get f) :
    s.config.carrier = .uninterpreted ∧ ∃ (v h : Byte) (payload : List Byte),
      carrierPacket f s (facePolls f s).2.carrierLog = some ⟨v, h :: payload⟩ ∧ h.getLsbD 7 = true ∧
        h.extractLsb' 3 3 = (s.fc.get f).header.sequence := by
  cases hc : s.config.carrier with
  | faceOnly =>
    cases hp : ((sampledFace s).rx.get f).present with
    | true =>
      rw [receiveFace_of_present hc hp] at hne
      exact absurd (congrArg (fun v => PerFace.get v f) (sampledFace_dgOut s)) hne
    | false =>
      rw [receiveFace_of_empty hc hp] at hne
      exact absurd (congrArg (fun v => PerFace.get v f) (sampledFace_dgOut s)) hne
  | uninterpreted =>
    refine ⟨rfl, ?_⟩
    cases hp : carrierPacket f s (facePolls f s).2.carrierLog with
    | none =>
      rw [receiveFace_of_none hc hp, polledFace_dgOut] at hne
      exact absurd rfl hne
    | some p =>
      rw [receiveFace_of_some hc hp, handlePacket] at hne
      split at hne
      · rw [State.notify_dgOut, polledFace_dgOut] at hne
        exact absurd rfl hne
      · obtain ⟨v, _ | ⟨h, payload⟩⟩ := p
        · exact absurd (congrArg (fun v => PerFace.get v f) (polledFace_dgOut f s)) hne
        · have hsame : (takeFaceValue f (s.clockAt 0) v (polledFace f s)).dgOut = s.dgOut := polledFace_dgOut f s
          have hseq : ((takeFaceValue f (s.clockAt 0) v (polledFace f s)).fc.get f).header = (s.fc.get f).header := by
            rw [← polledFace_sequence f s]; simp [takeFaceValue]
          obtain hout | ⟨h7, hack, -⟩ :=
            datagramReceive_dgOut f h payload (takeFaceValue f (s.clockAt 0) v (polledFace f s))
          · exact absurd (by rw [hout, hsame]) hne
          · exact ⟨v, h, payload, rfl, h7, by rw [hack, hseq]⟩

theorem allFaces_take (f : Face) : allFaces = allFaces.take f.val ++ f :: allFaces.drop (f.val + 1) ∧
    f ∉ allFaces.take f.val ∧ f ∉ allFaces.drop (f.val + 1) := by
  fin_cases f <;> decide

/-- In a whole receive step the slot of a face is what its own treatment leaves. -/
theorem receiveFaces_allFaces_dgOut (f : Face) (s : State) :
    (receiveFaces allFaces s).dgOut.get f =
      (receiveFace f (receiveFaces (allFaces.take f.val) s)).dgOut.get f := by
  obtain ⟨hsplit, -, hrest⟩ := allFaces_take f
  conv_lhs => rw [hsplit, receiveFaces_append, receiveFaces]
  exact receiveFaces_dgOut_of_not_mem _ hrest _

/-- How an outbound slot may differ after an operation: it stays, is armed, or is emptied by an acknowledgement. -/
inductive OutSlot (s : State) (f : Face) : Instr → State → Prop
  | stays {i : Instr} {t : State} (h : t.dgOut.get f = s.dgOut.get f) : OutSlot s f i t
  | armed {bytes : List Byte} {t : State} (hempty : (s.dgOut.get f).len = 0)
      (hseq : (t.fc.get f).header.sequence = (s.fc.get f).header.sequence + 1) : OutSlot s f (.sendDatagram f.val bytes) t
  | header {h : Byte} {payload : List Byte} {t : State} (h7 : h.getLsbD 7 = true)
      (hack : h.extractLsb' 3 3 = (s.fc.get f).header.sequence) (hempty : (t.dgOut.get f).len = 0) :
      OutSlot s f (.header f.val h payload) t
  | received {t : State} (h : t = receiveFaces allFaces s) (hempty : (t.dgOut.get f).len = 0)
      (hne : t.dgOut.get f ≠ s.dgOut.get f) : OutSlot s f .receiveStep t

theorem Slot.eq_of_same {a b : Slot} (hb : b.bytes = a.bytes) (hl : b.len = a.len) : b = a := by
  cases a; cases b; cases hb; cases hl; rfl

theorem Effect.outSlot {s t : State} {i : Instr} (he : Effect s i t) (f : Face) : OutSlot s f i t := by
  cases he with
  | txPacket m p t hsent =>
    have hout : t.dgOut = s.dgOut := by rw [(packetTx_sends hsent).frame]
    exact .stays (by rw [hout])
  | sendStep t hsent =>
    have hout : t.dgOut = s.dgOut := by rw [(sendFaces_sends allFaces hsent).frame]
    exact .stays (by rw [hout])
  | arms g bytes hcan =>
    by_cases hfg : f = g
    · subst hfg
      refine .armed (canArm_iff.mp hcan).1 ?_
      rw [arm_eq]; simp
    · refine .stays ?_
      rw [arm_eq]
      exact PerFace.get_set_of_ne _ _ hfg
  | header g h payload =>
    obtain hout | ⟨h7, hack, hout⟩ := datagramReceive_dgOut g h payload s
    · exact .stays (by rw [hout])
    · by_cases hfg : f = g
      · subst hfg
        exact .header h7 hack (by rw [hout, PerFace.get_set_same]; rfl)
      · exact .stays (by rw [hout, PerFace.get_set_of_ne _ _ hfg])
  | receiveStep =>
    have hr := receiveFaces_received allFaces s
    obtain hlen | hlen := hr.outLen f
    · exact .stays (Slot.eq_of_same (hr.outBytes f) hlen)
    · by_cases hsame : (receiveFaces allFaces s).dgOut.get f = s.dgOut.get f
      · exact .stays hsame
      · exact .received rfl hlen hsame
  | _ => exact .stays rfl

/-- Settles O59: a slot is armed empty, and emptied by the acknowledgement that its face's header bears. -/
theorem outboundSlotChangesOnlyByArmingAndAck : Obligations.OutboundSlotChangesOnlyByArmingAndAck := by
  intro i s t f h
  cases (exec_effect h).outSlot f with
  | stays hsame => rw [hsame]; exact ⟨fun h0 h1 => absurd h0 h1, fun h0 h1 => absurd h1 h0, fun _ _ => rfl⟩
  | armed hempty hseq =>
    exact ⟨fun _ _ => ⟨⟨_, rfl⟩, hseq⟩, fun hfull => absurd hempty hfull, fun hfull => absurd hempty hfull⟩
  | header h7 hack hempty =>
    exact ⟨fun _ hfull => absurd hempty hfull, fun _ _ => .inr ⟨_, _, rfl, h7, hack⟩, fun _ hfull => absurd hempty hfull⟩
  | received ht hempty hne =>
    refine ⟨fun _ hfull => absurd hempty hfull, fun _ _ => .inl ⟨rfl, ?_⟩, fun _ hfull => absurd hempty hfull⟩
    subst ht
    have hbefore : (receiveFaces (allFaces.take f.val) s).dgOut.get f = s.dgOut.get f :=
      receiveFaces_dgOut_of_not_mem _ (allFaces_take f).2.1 s
    have hr := receiveFaces_received (allFaces.take f.val) s
    rw [receiveFaces_allFaces_dgOut, ← hbefore] at hne
    obtain ⟨hc, v, b, payload, hp, h7, hack⟩ := receiveFace_empties hne
    exact ⟨hr.config ▸ hc, v, b, payload, hp, h7, hack.trans (hr.sequence f)⟩

end Sys2Proof.Machine

namespace Sys2Proof.Machine

/-! ### What only a receive step changes (60 R242) -/

/-- The registers of face `f` that the receive path alone writes: `inValue`, `expireTimer`, `ackSequence`, the inbound
buffer, and an outbound slot that is emptied. -/
structure KeepsReceived (f : Face) (s t : State) : Prop where
  inValue : (t.fc.get f).inValue = (s.fc.get f).inValue
  expireTimer : (t.fc.get f).expireTimer = (s.fc.get f).expireTimer
  ackSequence : (t.fc.get f).header.ackSequence = (s.fc.get f).header.ackSequence
  inBytes : (t.dgIn.get f).bytes = (s.dgIn.get f).bytes
  occupied : (s.dgOut.get f).len ≠ 0 → (t.dgOut.get f).len ≠ 0

theorem KeepsReceived.of_same {f : Face} {s t : State} (hfc : t.fc = s.fc) (hin : t.dgIn = s.dgIn)
    (hout : t.dgOut = s.dgOut) : KeepsReceived f s t := by
  constructor <;> simp only [hfc, hin, hout]
  exact id

theorem KeepsReceived.trans {f : Face} {s t u : State} (h1 : KeepsReceived f s t) (h2 : KeepsReceived f t u) :
    KeepsReceived f s u :=
  ⟨h2.inValue.trans h1.inValue, h2.expireTimer.trans h1.expireTimer, h2.ackSequence.trans h1.ackSequence,
    h2.inBytes.trans h1.inBytes, fun h => h2.occupied (h1.occupied h)⟩

theorem SendPath.keepsReceived {s t : State} (h : SendPath s t) (f : Face) : KeepsReceived f s t := by
  obtain ⟨x, hx, -⟩ := h.timers f
  have hin : t.dgIn = s.dgIn := by rw [h.frame]
  have hout : t.dgOut = s.dgOut := by rw [h.frame]
  constructor <;> simp only [hx, hin, hout]
  exact id

/-- An operation writes the inbound buffer in a receive step, or is a part of one (44 R212). -/
theorem Effect.inBytes {s t : State} {i : Instr} (he : Effect s i t) (hpart : partOnly i = false)
    (hi : i ≠ .receiveStep) (f : Face) : (t.dgIn.get f).bytes = (s.dgIn.get f).bytes := by
  cases he with
  | txPacket m p t hsent => rw [(packetTx_sends hsent).frame]
  | sendStep t hsent => rw [(sendFaces_sends allFaces hsent).frame]
  | receiveStep => exact absurd rfl hi
  | header g h payload => cases hpart
  | consumes g =>
    rw [State.setDgIn_dgIn, PerFace.get_set]
    split
    · subst f; rfl
    · rfl
  | _ => rfl

/-- An operation of the main loop that is no receive step keeps what the receive path writes. -/
theorem Effect.keepsReceived {s t : State} {i : Instr} (he : Effect s i t) (hpart : partOnly i = false)
    (hi : i ≠ .receiveStep) (f : Face) : KeepsReceived f s t where
  inValue := by
    by_contra hne
    exact hi ((he.writtenBy f).inValue hne)
  expireTimer := by
    by_contra hne
    obtain rfl | rfl | rfl := (he.writtenBy f).expireTimer hne
    · exact hi rfl
    · cases hpart
    · cases hpart
  ackSequence := by
    by_contra hne
    obtain rfl | ⟨h, payload, rfl⟩ := (he.writtenBy f).ackSequence hne
    · exact hi rfl
    · cases hpart
  inBytes := he.inBytes hpart hi f
  occupied hfull := by
    cases he.outSlot f with
    | stays hsame => rwa [hsame]
    | armed hempty => exact absurd hempty hfull
    | header => cases hpart
    | received => exact absurd rfl hi

theorem State.receives_of_begins {s : State} (hdoes : ∀ p q, s.mainDoes p q = q Instr.receiveStep) :
    s.receives = true := by
  rw [State.receives, hdoes]
  rfl

/-- A step outside a receive step keeps what the receive path writes. -/
theorem Stepped.keepsReceived {s t : State} (h : Stepped s t) (f : Face) : s.receives = true ∨ KeepsReceived f s t := by
  have hsending : ∀ (x : Option Transmission) (after : Option SendRest) (u : State), u.fc = s.fc → u.dgIn = s.dgIn →
      u.dgOut = s.dgOut → KeepsReceived f s (sendingAt x after u) := fun x after u hfc hin hout =>
    ((KeepsReceived.of_same hfc hin hout).trans ((sendingAt_sends x after u).keepsReceived f)).trans
      (.of_same rfl rfl rfl)
  cases h with
  | holdsOn => exact .inr (.of_same (by rw [preempt_frame]) (by rw [preempt_frame]) (by rw [preempt_frame]))
  | takesHeld g =>
    have hf := preempt_frame s
    exact .inr (.of_same (congrArg State.fc hf :) (congrArg State.dgIn hf :) (congrArg State.dgOut hf :))
  | runs i rest t hpart hdoes hexec =>
    by_cases hi : i = .receiveStep
    · subst hi; exact .inl (State.receives_of_begins hdoes)
    · exact .inr (.trans (t := { s with agenda := rest }) (.of_same rfl rfl rfl)
        ((exec_effect hexec).keepsReceived hpart hi f))
  | handsOver rest frs after u hu hmask => exact .inr (hsending _ after u (by rw [hu]) (by rw [hu]) (by rw [hu]))
  | sends rest x after hat hdoes => exact .inr (hsending _ after _ rfl rfl rfl)
  | receives rest fs hdoes => exact .inl (by rw [State.receives, hdoes])
  | treats rest r fs t hdoes hexec => exact .inl (by rw [State.receives, hdoes])
  | _ => exact .inr (.of_same rfl rfl rfl)

/-- Settles O58: the writers by operation; and by steps, where the receive path is a receive step. -/
theorem faceChannelRegistersHaveTheirWriters : Obligations.FaceChannelRegistersHaveTheirWriters := by
  refine ⟨fun i s t f h => ?operation, fun s t f h hchanged => ?step, fun s t hlaunch hquiet h => ?launch⟩
  case operation =>
    obtain ⟨h1, h2, h3, h4, h5, h6, h7, h8, h9⟩ := (exec_effect h).writtenBy f
    exact ⟨h1, h2, h3, h4, h5, h6, h7, h8, h9⟩
  case step =>
    obtain hreceives | hkeeps := (step_stepped h).keepsReceived f
    · exact hreceives
    · rcases hchanged with hin | hexp | hack | hbytes | ⟨hfull, hempty⟩
      · exact absurd hkeeps.inValue hin
      · exact absurd hkeeps.expireTimer hexp
      · exact absurd hkeeps.ackSequence hack
      · exact absurd hkeeps.inBytes hbytes
      · exact absurd hempty (hkeeps.occupied hfull)
  case launch =>
    rw [State.launch, allFaces_all, decide_eq_true_eq] at hlaunch ⊢
    intro f
    obtain hreceives | hkeeps := (step_stepped h).keepsReceived f
    · rw [hreceives] at hquiet; cases hquiet
    · rw [hkeeps.inValue]; exact hlaunch f

/-! ### The traces (42 R150, 43 R184) -/

/-- The traces after a step: they only grow, pulses in a transmission, reports in a receive step. -/
structure TracesGrow (s t : State) (sends reports : Prop) : Prop where
  pulses : ∃ es, t.txTrace = s.txTrace ++ es
  events : ∃ hs, t.hostEvents = s.hostEvents ++ hs
  sends : t.txTrace ≠ s.txTrace → sends
  reports : t.hostEvents ≠ s.hostEvents → reports

theorem TracesGrow.of_same {s t : State} {p q : Prop} (htx : t.txTrace = s.txTrace)
    (hev : t.hostEvents = s.hostEvents) : TracesGrow s t p q :=
  ⟨⟨[], by rw [htx, List.append_nil]⟩, ⟨[], by rw [hev, List.append_nil]⟩, absurd htx, absurd hev⟩

theorem TracesGrow.of_sends {s t : State} {p q : Prop} (htx : ∃ es, t.txTrace = s.txTrace ++ es)
    (hev : t.hostEvents = s.hostEvents) (hp : p) : TracesGrow s t p q :=
  ⟨htx, ⟨[], by rw [hev, List.append_nil]⟩, fun _ => hp, absurd hev⟩

theorem TracesGrow.of_reports {s t : State} {p q : Prop} (htx : t.txTrace = s.txTrace)
    (hev : ∃ hs, t.hostEvents = s.hostEvents ++ hs) (hq : q) : TracesGrow s t p q :=
  ⟨⟨[], by rw [htx, List.append_nil]⟩, hev, absurd htx, fun _ => hq⟩

theorem SendPath.hostEvents {s t : State} (h : SendPath s t) : t.hostEvents = s.hostEvents := by rw [h.frame]

/-- The operations that transmit when they run whole in a step (60 R242). -/
def transmitsWhole : Instr → Bool
  | .txByte _ _ => true
  | .txPacket _ _ => true
  | .sendStep => true
  | _ => false

theorem State.transmits_of_runs {s : State} {i : Instr} (hdoes : ∀ p q, s.mainDoes p q = q i) :
    s.transmits = transmitsWhole i := by
  rw [State.transmits, hdoes]
  cases i <;> rfl

theorem Effect.tracesGrow {s t : State} {i : Instr} (he : Effect s i t) (hpart : partOnly i = false) :
    TracesGrow s t (transmitsWhole i = true) (i = .receiveStep) := by
  cases he with
  | pulses i es hparts => rw [hpart] at hparts; cases hparts
  | txByte m v => exact .of_sends ⟨_, rfl⟩ rfl rfl
  | txPacket m p t hsent => exact .of_sends (packetTx_sends hsent).appends (packetTx_sends hsent).hostEvents rfl
  | sendStep t hsent =>
    have hsends := sendFaces_sends allFaces hsent
    exact .of_sends hsends.appends hsends.hostEvents rfl
  | receiveStep =>
    have hr := receiveFaces_received allFaces s
    exact .of_reports hr.txTrace hr.reports rfl
  | header g h payload => cases hpart
  | special i g c hrow => obtain rfl | rfl := hrow <;> cases hpart
  | _ => exact .of_same rfl rfl

theorem receivePart_received {r : ReceivePart} {s t : State} (h : exec r.instr s = .next t) : ReceivePath s t := by
  have hspecial : ∀ (f : Face) (e : HostEvent), ReceivePath s ((refreshExpiry f s.now s.afterNow).notify e) :=
    fun f e => ((afterNow_received s).trans (refreshExpiry_received f s.now _)).trans (notify_received e _)
  cases r with
  | header f b payload =>
    rw [ReceivePart.instr, exec_header] at h
    cases h; exact datagramReceive_received f b payload s
  | sleep f =>
    rw [ReceivePart.instr, (exec_special f s).1] at h
    cases h; exact hspecial f _
  | wake f =>
    rw [ReceivePart.instr, (exec_special f s).2] at h
    cases h; exact hspecial f _

theorem sendingAt_traces (x : Option Transmission) (after : Option SendRest) (s : State) :
    (sendingAt x after s).txTrace = s.txTrace ∧ (sendingAt x after s).hostEvents = s.hostEvents := by
  cases x with
  | none => cases after <;> exact ⟨rfl, rfl⟩
  | some x => exact ⟨rfl, rfl⟩

theorem Stepped.tracesGrow {s t : State} (h : Stepped s t) :
    TracesGrow s t (s.transmits = true) (s.receives = true) := by
  cases h with
  | holdsOn => exact .of_same (by rw [preempt_frame]) (by rw [preempt_frame])
  | takesHeld g =>
    exact .of_same (congrArg State.txTrace (preempt_frame s) :) (congrArg State.hostEvents (preempt_frame s) :)
  | runs i rest t hpart hdoes hexec =>
    obtain ⟨hpulses, hevents, hsends, hreports⟩ := (exec_effect hexec).tracesGrow hpart
    refine ⟨hpulses, hevents, fun hne => ?_, fun hne => ?_⟩
    · rw [State.transmits_of_runs hdoes]; exact hsends hne
    · obtain rfl := hreports hne
      exact State.receives_of_begins hdoes
  | handsOver rest frs after u hu hmask =>
    obtain ⟨htx, hev⟩ := sendingAt_traces (Transmission.start frs) after u
    exact .of_same (by rw [htx, hu]) (by rw [hev, hu])
  | sends rest x after hat hdoes =>
    obtain ⟨htx, hev⟩ := sendingAt_traces x.next after ({ s with agenda := rest }.transmit (x.call s.config))
    exact .of_sends ⟨x.call s.config, htx⟩ hev (by rw [State.transmits, hdoes])
  | receives rest fs hdoes =>
    have hr := receiveVisit_received fs { s with agenda := rest }
    exact .of_reports hr.txTrace hr.reports (by rw [State.receives, hdoes])
  | treats rest r fs t hdoes hexec =>
    have hr := receivePart_received hexec
    exact .of_reports hr.txTrace hr.reports (by rw [State.receives, hdoes])
  | _ => exact .of_same rfl rfl

/-- Settles O60: each form of a step appends to one trace at most, within the operation that may. -/
theorem tracesOnlyGrow : Obligations.TracesOnlyGrow := by
  intro s t h
  obtain ⟨hpulses, hevents, hsends, hreports⟩ := (step_stepped h).tracesGrow
  exact ⟨hpulses, hevents, hsends, hreports⟩

end Sys2Proof.Machine
